-- ==== Sys2Proof/Word.lean ====
section
/-! DEFINITION. Word.lean: the three widths of field that the TM440's frames carry (R193). -/

namespace Sys2Proof

/-- One byte of a frame. -/
abbrev Byte := BitVec 8

/-- A 2-byte field of a frame: a point index, a count of ticks, a sequence number. -/
abbrev Half := BitVec 16

/-- A 4-byte field of a frame: the value of a point, a limit, an offset. -/
abbrev Word := BitVec 32

end Sys2Proof
end

