-- ==== Sys2Proof/Syntax.lean ====
section
/-! DEFINITION. Syntax.lean: the commands of the TM440, one constructor of Instr per row of spec/opcode_table.json, and the
requests that a frame carries, with the body fields of Table 10.3-2. A field that the spec calls a flag is a Bool, since a flag
is clear at 00h and set at any other value (R193); a code, an index or a number is kept as its bits, since its owner examines
it when it executes the request (R174, R193). -/

namespace Sys2Proof

/-- The four request ports, and the requesters behind them (0.6). -/
inductive Port where
  | a
  | b
  | c
  | d
  deriving DecidableEq, Repr

/-- The level of a pin. -/
inductive Level where
  | low
  | high
  deriving DecidableEq, Repr

/-- One entry of a WRITE body (Table 10.3-2). -/
structure WriteArgs where
  point : Half
  value : Word
  suspect : Bool
  deriving DecidableEq, Repr

/-- One entry of a BATCH_PUT body (Table 10.3-2). -/
structure PutArgs where
  point : Half
  value : Word
  deriving DecidableEq, Repr

/-- The body of DEFINE (Table 10.3-2). -/
structure DefineArgs where
  point : Half
  kind : Byte
  default : Word
  low : Word
  high : Word
  limitAction : Byte
  maxAge : Half
  rights : Byte
  deriving DecidableEq, Repr

/-- The body of CLAIM (Table 10.3-2). -/
structure ClaimArgs where
  lease : Half
  mode : Byte
  wait : Bool
  waitLimit : Half
  points : List Half
  deriving DecidableEq, Repr

/-- The body of RELEASE and of RENEW: the list selector and the indices (Table 10.3-2). -/
structure ListArgs where
  selector : Byte
  points : List Half
  deriving DecidableEq, Repr

/-- The body of SUBSCRIBE (Table 10.3-2). -/
structure SubscribeArgs where
  point : Half
  condition : Byte
  deadband : Word
  deriving DecidableEq, Repr

/-- A trigger source as a frame carries it: a class byte and a 2-byte number (R193). -/
structure TriggerArgs where
  cls : Byte
  number : Half
  deriving DecidableEq, Repr

/-- The order definition of an ORDER_DEFINE body (Table 10.5-2). -/
structure OrderArgs where
  trigger : TriggerArgs
  source : Half
  runLength : Byte
  dest : Half
  step : Byte
  wrap : Byte
  transform : Byte
  gain : Half
  offset : Word
  threshold : Word
  runs : Half
  chain : Byte
  deriving DecidableEq, Repr

/-- One scan list entry of a SCAN_DEFINE part (Table 10.5-3). -/
structure ScanEntryArgs where
  input : Byte
  dest : Half
  gain : Half
  offset : Word
  rail : Byte
  deriving DecidableEq, Repr

/-- One SCAN_DEFINE frame: a part of a scan list (10.6). -/
structure ScanPartArgs where
  mode : Byte
  trigger : TriggerArgs
  first : Byte
  last : Bool
  entries : List ScanEntryArgs
  deriving DecidableEq, Repr

/-- The SCAN_DEFINE that a port assembles from its parts and presents to the scanner (R200). -/
structure ScanDefineArgs where
  mode : Byte
  trigger : TriggerArgs
  entries : List ScanEntryArgs
  deriving DecidableEq, Repr

/-- The body of OUTPUT_BIND (Table 10.3-2). -/
structure BindArgs where
  line : Byte
  point : Half
  safe : Byte
  invert : Bool
  deriving DecidableEq, Repr

/-- A request in a port's window (R176). `scanDefinePart` is the SCAN_DEFINE frame; `scanDefine` is the whole list that the
port presents to the scanner in place of the last part (R200), and no frame carries it. -/
inductive Request where
  | read (points : List Half)
  | write (entries : List WriteArgs)
  | define (args : DefineArgs)
  | undefine (point : Half)
  | tableReset
  | claim (args : ClaimArgs)
  | release (args : ListArgs)
  | renew (args : ListArgs)
  | withdraw (point : Half)
  | batchOpen
  | batchPut (entries : List PutArgs)
  | batchCommit (releaseAfter : Bool)
  | batchDiscard
  | subscribe (args : SubscribeArgs)
  | unsubscribe (point : Half)
  | fetch (count : Byte)
  | orderDefine (order : Byte) (args : OrderArgs)
  | orderArm (order : Byte)
  | orderDisarm (order : Byte)
  | orderFire (order : Byte)
  | orderQuery (order : Byte)
  | orderClear (order : Byte)
  | scanDefinePart (args : ScanPartArgs)
  | scanDefine (args : ScanDefineArgs)
  | scanArm
  | scanStart
  | scanStop
  | scanDisarm
  | scanQuery
  | tickSet (period : Half) (runState : Byte)
  | timerSet (timer : Byte) (period : Half) (mode : Byte)
  | timerStop (timer : Byte)
  | lineSet (line : Byte) (edge : Byte)
  | outputBind (args : BindArgs)
  | portReset
  | forcePortReset (target : Byte)
  | configGrant (target : Byte)
  | configRevoke (target : Byte)
  | attnSet (response : Byte) (notice : Byte)
  | status
  deriving DecidableEq, Repr

/-- The commands, one constructor per row of spec/opcode_table.json.
A command named for a request is the EXECUTION of that request at its owner (R177): `port` is the port whose oldest ACCEPTED
entry it is, and the other operands are the request's body.
The other commands are the part's remaining steps: pins and exchanges, ticks and their deliveries, edges, copies, conversions. -/
inductive Instr where
  | coldReset
  | selectFalling (port : Port) (sck : Level)
  | exchangeEnd (port : Port) (bytes : List Byte) (spareBits : Fin 8)
  | read (port : Port) (points : List Half)
  | write (port : Port) (entries : List WriteArgs)
  | define (port : Port) (args : DefineArgs)
  | undefine (port : Port) (point : Half)
  | tableReset (port : Port)
  | claim (port : Port) (args : ClaimArgs)
  | release (port : Port) (args : ListArgs)
  | renew (port : Port) (args : ListArgs)
  | withdraw (port : Port) (point : Half)
  | tick
  | tickAgeing
  | pointStale (point : Fin 512)
  | claimArbiterTick
  | leaseLapse (point : Fin 512)
  | waitExpiry (point : Fin 512) (port : Port)
  | timerTick (timer : Fin 4)
  | timerExpiry (timer : Fin 4)
  | lineEdge (line : Fin 8) (level : Level)
  | batchOpen (port : Port)
  | batchPut (port : Port) (entries : List PutArgs)
  | batchCommit (port : Port) (releaseAfter : Bool)
  | batchDiscard (port : Port)
  | subscribe (port : Port) (args : SubscribeArgs)
  | unsubscribe (port : Port) (point : Half)
  | fetch (port : Port) (count : Byte)
  | orderDefine (port : Port) (order : Byte) (args : OrderArgs)
  | orderArm (port : Port) (order : Byte)
  | orderDisarm (port : Port) (order : Byte)
  | orderFire (port : Port) (order : Byte)
  | orderQuery (port : Port) (order : Byte)
  | orderClear (port : Port) (order : Byte)
  | orderCopy
  | scanDefinePart (port : Port) (args : ScanPartArgs)
  | scanDefine (port : Port) (args : ScanDefineArgs)
  | scanArm (port : Port)
  | scanStart (port : Port)
  | scanStop (port : Port)
  | scanDisarm (port : Port)
  | scanQuery (port : Port)
  | conversionCompletion (raw : BitVec 12)
  | tickSet (port : Port) (period : Half) (runState : Byte)
  | timerSet (port : Port) (timer : Byte) (period : Half) (mode : Byte)
  | timerStop (port : Port) (timer : Byte)
  | lineSet (port : Port) (line : Byte) (edge : Byte)
  | outputBind (port : Port) (args : BindArgs)
  | portReset (port : Port)
  | forcePortReset (port : Port) (target : Byte)
  | configGrant (port : Port) (target : Byte)
  | configRevoke (port : Port) (target : Byte)
  | attnSet (port : Port) (response : Byte) (notice : Byte)
  | status (port : Port)
  | coldResetEnd (pins : BitVec 8)
  deriving DecidableEq, Repr

/-- The port and the request of a command that executes a request; none for the part's other steps. -/
def Instr.request? : Instr → Option (Port × Request)
  | .coldReset => none
  | .selectFalling _ _ => none
  | .exchangeEnd _ _ _ => none
  | .read p x => some (p, .read x)
  | .write p x => some (p, .write x)
  | .define p x => some (p, .define x)
  | .undefine p x => some (p, .undefine x)
  | .tableReset p => some (p, .tableReset)
  | .claim p x => some (p, .claim x)
  | .release p x => some (p, .release x)
  | .renew p x => some (p, .renew x)
  | .withdraw p x => some (p, .withdraw x)
  | .tick => none
  | .tickAgeing => none
  | .pointStale _ => none
  | .claimArbiterTick => none
  | .leaseLapse _ => none
  | .waitExpiry _ _ => none
  | .timerTick _ => none
  | .timerExpiry _ => none
  | .lineEdge _ _ => none
  | .batchOpen p => some (p, .batchOpen)
  | .batchPut p x => some (p, .batchPut x)
  | .batchCommit p x => some (p, .batchCommit x)
  | .batchDiscard p => some (p, .batchDiscard)
  | .subscribe p x => some (p, .subscribe x)
  | .unsubscribe p x => some (p, .unsubscribe x)
  | .fetch p x => some (p, .fetch x)
  | .orderDefine p n x => some (p, .orderDefine n x)
  | .orderArm p n => some (p, .orderArm n)
  | .orderDisarm p n => some (p, .orderDisarm n)
  | .orderFire p n => some (p, .orderFire n)
  | .orderQuery p n => some (p, .orderQuery n)
  | .orderClear p n => some (p, .orderClear n)
  | .orderCopy => none
  | .scanDefinePart p x => some (p, .scanDefinePart x)
  | .scanDefine p x => some (p, .scanDefine x)
  | .scanArm p => some (p, .scanArm)
  | .scanStart p => some (p, .scanStart)
  | .scanStop p => some (p, .scanStop)
  | .scanDisarm p => some (p, .scanDisarm)
  | .scanQuery p => some (p, .scanQuery)
  | .conversionCompletion _ => none
  | .tickSet p x r => some (p, .tickSet x r)
  | .timerSet p n x m => some (p, .timerSet n x m)
  | .timerStop p n => some (p, .timerStop n)
  | .lineSet p n e => some (p, .lineSet n e)
  | .outputBind p x => some (p, .outputBind x)
  | .portReset p => some (p, .portReset)
  | .forcePortReset p x => some (p, .forcePortReset x)
  | .configGrant p x => some (p, .configGrant x)
  | .configRevoke p x => some (p, .configRevoke x)
  | .attnSet p r n => some (p, .attnSet r n)
  | .status p => some (p, .status)
  | .coldResetEnd _ => none

end Sys2Proof
end

