-- ==== Sys2Proof/Decode.lean ====
section
/-! DEFINITION. Decode.lean: spec/opcode_table.json gives no row any bits, so no word spells a command. (How the bytes of an
exchange are read as a request frame is in Machine/Frames.lean.) -/

namespace Sys2Proof

/-- No row of the table gives bits: every word is refused. -/
def decodeTableWord (_nbits _w : Nat) : Option Instr := none

end Sys2Proof
end

