-- ==== Sys2Proof/Config.lean ====
section
/-! DEFINITION. Config.lean: the sizes and bounds that the spec fixes for the part. The spec leaves no result of a command
open, so no free value stands here. -/

namespace Sys2Proof.Config

/-- Places of a port's window (R176). -/
def windowSize : Nat := 4

/-- Notices that a port's notice queue holds (R83). -/
def queueSize : Nat := 32

/-- The greatest merged count of a notice, where it saturates (R82). -/
def mergedMax : Nat := 255

/-- Points held plus waits placed that a port may have (R35). -/
def claimLimit : Nat := 128

/-- Waits on one point (R45). -/
def waitersMax : Nat := 3

/-- Entries of one batch (R58). -/
def batchSize : Nat := 16

/-- Entries of a scan list, staged or stored (R140, R200). -/
def scanListSize : Nat := 16

/-- Triggers that an order holds (R120). -/
def pendingMax : Nat := 3

/-- The greatest value of a 2-byte count that saturates: missed and faults (R111, R140). -/
def countMax : Nat := 65535

/-- The longest tick period, in units of 100 µs (R157). -/
def tickPeriodMax : Nat := 10000

/-- The tick period after cold reset, in units of 100 µs (R157). -/
def tickPeriodReset : Nat := 10

/-- Bytes of one exchange (R170). -/
def exchangeBytes : Nat := 64

/-- The raw reading at the top rail of the 12-bit converter (R147, R149). -/
def railTop : Nat := 4095

end Sys2Proof.Config
end

