-- ==== Sys2Proof/Machine/State.lean ====
section
/-! DEFINITION. Machine/State.lean: everything the spec gives the TM440, block by block as in Table 0.3-1, as plain data, and the
part as cold reset leaves it. -/

namespace Sys2Proof.Machine

/-! ### The point table and the claim records kept with it -/

/-- The index of a point slot (R1). -/
abbrev PointIx := Fin 512

/-- The number of an order slot (R110). -/
abbrev OrderIx := Fin 32

/-- How the 32 bits of a point's value are read (R2). -/
inductive Kind where
  | u32
  | s32
  | bool
  deriving DecidableEq, Repr

/-- What becomes of a write outside the limits (R3). -/
inductive LimitAction where
  | reject
  | clamp
  deriving DecidableEq, Repr

/-- The standing of a point's value (R4). -/
inductive Quality where
  | unset
  | good
  | suspect
  | stale
  deriving DecidableEq, Repr

/-- The mode of a port claim (R34). -/
inductive ClaimMode where
  | hold
  | writeOnce
  deriving DecidableEq, Repr

/-- A party that can hold points (R32): a port, the scanner, one order slot. -/
inductive Party where
  | port (p : Port)
  | scanner
  | order (n : OrderIx)
  deriving DecidableEq, Repr

/-- One value for each of the four ports. -/
structure PerPort (α : Type) where
  a : α
  b : α
  c : α
  d : α
  deriving DecidableEq, Repr

/-- A set of ports. -/
abbrev PortSet := PerPort Bool

/-- The claim rights of a point (R7). -/
structure Rights where
  ports : PortSet
  internal : Bool
  deriving DecidableEq, Repr

/-- A running lease (R33): its length and the ticks left, both above 0. A claim without a lease has none. -/
structure Lease where
  length : Nat
  remaining : Nat
  deriving DecidableEq, Repr

/-- The claim of a port that holds a point (Table 2.1-1): lease and mode are present only while a port holds. -/
structure PortClaim where
  port : Port
  lease : Option Lease
  mode : ClaimMode
  deriving DecidableEq, Repr

/-- Who holds a point (R31, R32). -/
inductive Holder where
  | none
  | port (claim : PortClaim)
  | scanner
  | order (n : OrderIx)
  deriving DecidableEq, Repr

/-- One wait of a waiter list (Table 2.4-1); `lease` is the lease length asked for, 0 for none. -/
structure Wait where
  port : Port
  lease : Nat
  mode : ClaimMode
  remaining : Nat
  deriving DecidableEq, Repr

/-- The definition of a point (R1). -/
structure PointDef where
  kind : Kind
  default : Word
  low : Word
  high : Word
  limitAction : LimitAction
  maxAge : Nat
  rights : Rights
  deriving DecidableEq, Repr

/-- The record of a defined point (Table 1.1-1): its definition and its live state. -/
structure Point where
  defn : PointDef
  value : Word
  quality : Quality
  seq : BitVec 16
  age : Nat
  holder : Holder
  waiters : List Wait
  deriving DecidableEq, Repr

/-! ### The batch stage -/

/-- One staged write (R58). -/
structure BatchEntry where
  point : PointIx
  value : Word
  deriving DecidableEq, Repr

/-- The entries of an open batch, in entry order (R58). -/
abbrev Batch := List BatchEntry

/-! ### The notice unit -/

/-- Which accepted writes raise a cause (Table 4.1-1). A DEADBAND subscription to a BOOL point is stored without its
deadband (R72). -/
inductive Condition where
  | write
  | change
  | deadband (least : Option Word)
  deriving DecidableEq, Repr

/-- A subscription of a port to a point (R71). -/
structure Sub where
  condition : Condition
  reference : Word
  deriving DecidableEq, Repr

/-- What a notice is about (Table 0.5-1). -/
inductive Subject where
  | point (i : PointIx)
  | order (n : OrderIx)
  deriving DecidableEq, Repr

/-- Why a notice is raised (Table 4.3-1). -/
inductive Cause where
  | subscribed
  | written
  | changed
  | quality
  | clamped
  | undefined
  | claimGranted
  | claimLapsed
  | waitExpired
  | orderRetired
  | orderFault
  | resent
  deriving DecidableEq, Repr

/-- A set of causes: bit n is set when the cause with number n of Table 10.5-1 is in it (R199). -/
abbrev CauseSet := BitVec 12

/-- The states of an order other than EMPTY (R112). -/
inductive OrderPhase where
  | disarmed
  | armed
  | retired
  deriving DecidableEq, Repr

/-- The three state fields of a notice (Table 4.4-1). For an order the phase none stands for EMPTY. -/
inductive SubjectState where
  | point (value : Word) (quality : Quality) (seq : BitVec 16)
  | order (remaining : Nat) (phase : Option OrderPhase) (missed : Nat)
  deriving DecidableEq, Repr

/-- A notice (R82). -/
structure Notice where
  subject : Subject
  causes : CauseSet
  state : SubjectState
  merged : Nat
  deriving DecidableEq, Repr

/-- One entry of an owed map (R85). -/
structure Owed where
  subject : Subject
  causes : CauseSet
  deriving DecidableEq, Repr

/-- What the notice unit holds for one port: subscriptions, notice queue (oldest first) and owed map (rising subjects). -/
structure NoticeUnit where
  subs : Vector (Option Sub) 512
  queue : List Notice
  owed : List Owed
  deriving DecidableEq, Repr

/-! ### The output line driver -/

/-- The binding and the level of one output line (R102). -/
structure Output where
  point : Option PointIx
  safe : Level
  invert : Bool
  level : Level
  deriving DecidableEq, Repr

/-! ### The order engine -/

/-- A trigger source (Table 8.4-1). -/
inductive Trigger where
  | request
  | line (n : Fin 8)
  | timer (n : Fin 4)
  | chain (n : Fin 8)
  | scanEnd
  | point (i : PointIx)
  deriving DecidableEq, Repr

/-- How the source base moves after each run (R132); only STEP_WRAP has a wrap count. -/
inductive SourceStep where
  | fixed
  | step
  | stepWrap (count : Nat)
  deriving DecidableEq, Repr

/-- How a source value becomes a destination value (R127), with the fields that only it has (R114). -/
inductive Transform where
  | copy
  | scale (gain : BitVec 16) (offset : Word)
  | invert
  | compare (threshold : Word)
  deriving DecidableEq, Repr

/-- The definition fields of an order (Table 6.1-1); `runs` is the repeat count R. -/
structure OrderDef where
  owner : Port
  trigger : Trigger
  source : PointIx
  runLength : Nat
  dest : PointIx
  step : SourceStep
  transform : Transform
  runs : Nat
  chain : Option (Fin 8)
  deriving DecidableEq, Repr

/-- The record of an order that is not EMPTY: definition and live fields (Table 6.1-2), but for the run flag and the run
position, which the executor holds. -/
structure Order where
  defn : OrderDef
  phase : OrderPhase
  remaining : Nat
  pending : Nat
  missed : Nat
  runsDone : BitVec 32
  faults : Nat
  base : PointIx
  deriving DecidableEq, Repr

/-- The run in flight (R119): its order, the copies already taken, and whether it is STOPPING rather than RUNNING. -/
structure Run where
  order : OrderIx
  position : Nat
  stopping : Bool
  deriving DecidableEq, Repr

/-- The run flag of an order (Table 6.1-2). -/
inductive RunFlag where
  | none
  | running
  | stopping
  deriving DecidableEq, Repr

/-! ### The converter scanner -/

/-- An entry of the scan list (Table 7.1-2). -/
structure ScanEntry where
  input : Fin 8
  dest : PointIx
  gain : BitVec 16
  offset : Word
  rail : Bool
  deriving DecidableEq, Repr

/-- The scanner's mode (Table 7.1-1). -/
inductive ScanMode where
  | single
  | continuous
  deriving DecidableEq, Repr

/-- The states of the scanner other than EMPTY (R141). -/
inductive ScanPhase where
  | defined
  | armed
  | converting
  deriving DecidableEq, Repr

/-- The scanner record when the scanner is not EMPTY (Table 7.1-1). -/
structure Scanner where
  owner : Port
  entries : List ScanEntry
  mode : ScanMode
  trigger : Trigger
  phase : ScanPhase
  current : Nat
  pendingPass : Bool
  passCount : BitVec 32
  missed : Nat
  deriving DecidableEq, Repr

/-! ### The time base -/

/-- The tick generator (R157). `interval` is the length of the interval in progress, none while no interval runs. `dueTable`
and `dueArbiter` are the ticks produced that the point table and the claim arbiter have yet to take (R159). -/
structure TickGen where
  period : Nat
  running : Bool
  interval : Option Nat
  dueTable : Nat
  dueArbiter : Nat
  deriving DecidableEq, Repr

/-- The mode of an interval timer (Table 8.2-1). -/
inductive TimerMode where
  | oneShot
  | periodic
  deriving DecidableEq, Repr

/-- An interval timer (Table 8.2-1). `due` is the ticks produced that the timer has yet to take (R159). -/
structure Timer where
  period : Nat
  mode : TimerMode
  running : Bool
  remaining : Nat
  due : Nat
  deriving DecidableEq, Repr

/-- The edge setting of a trigger input line (R165). -/
inductive EdgeSetting where
  | off
  | rise
  | fall
  | both
  deriving DecidableEq, Repr

/-- A trigger input line (R165). -/
structure InLine where
  edge : EdgeSetting
  settled : Level
  deriving DecidableEq, Repr

/-! ### The request ports -/

/-- The statuses of responses and of entries (Table 10.4-1). -/
inductive Status where
  | ok
  | okClamped
  | waiting
  | idle
  | badLength
  | badCheck
  | badCode
  | noRight
  | badArg
  | notDefined
  | held
  | notHolder
  | notWaiting
  | outOfRange
  | limit
  | busy
  | state
  | noBatch
  | batchFull
  | batchRefused
  | tableReset
  deriving DecidableEq, Repr

/-- One READ result (R15). -/
structure ReadResult where
  status : Status
  value : Word
  seq : BitVec 16
  quality : Quality
  holder : Option Party
  deriving DecidableEq, Repr

/-- One WRITE result (R22). -/
structure WriteResult where
  status : Status
  value : Word
  seq : BitVec 16
  deriving DecidableEq, Repr

/-- The body of a response (Table 10.4-2), before it is laid out in bytes. -/
inductive Body where
  | empty
  | read (results : List ReadResult)
  | write (results : List WriteResult)
  | claim (point : PointIx) (holder : Option Party) (position : Nat)
  | list (count : Nat) (statuses : List Status)
  | all (count : Nat)
  | entries (count : Nat)
  | committed (written : Nat) (clampMarks : BitVec 16) (released : Nat)
  | commitRefused (position : Nat) (point : PointIx) (cause : Status)
  | subscribed (value : Word) (seq : BitVec 16) (quality : Quality)
  | notices (delivered : List Notice)
  | orderArm (point : PointIx) (holder : Option Party)
  | orderFire (pending : Nat) (missed : Nat) (flag : RunFlag)
  | order (n : OrderIx) (record : Option Order) (position : Nat) (flag : RunFlag)
  | scanArm (point : PointIx) (entry : Nat) (holder : Option Party)
  | scanStart (phase : ScanPhase) (pendingPass : Bool) (missed : Nat)
  | scanner (record : Option Scanner)
  | tick (period : Nat) (running : Bool)
  | timer (period : Nat) (mode : TimerMode) (running : Bool) (remaining : Nat)
  | timerStop (running : Bool) (remaining : Nat)
  | line (edge : EdgeSetting) (settled : Level)
  | output (point : Option PointIx) (safe : Level) (invert : Bool) (levelAfter : Level)
  | config (set : PortSet)
  | attn (response : Bool) (notice : Bool)
  | status (own : Port) (set : PortSet) (response : Bool) (notice : Bool) (level : Level) (behind : Nat)
  deriving DecidableEq, Repr

/-- An entry of a port's window (Table 9.3-1). -/
inductive Entry where
  | accepted (seq : Byte) (request : Request)
  | answered (seq : Byte) (status : Status) (body : Body)
  deriving DecidableEq, Repr

/-- The SPI mode of an exchange (R170). -/
inductive SpiMode where
  | mode0
  | mode3
  deriving DecidableEq, Repr

/-- The exchange under way at a port: its SPI mode, the outbound frame fixed at select falling (R178), whether that frame
carries the response at the head of the window and that entry still stands (R179), and which of the two flags the completed
exchange clears (R181). -/
structure Exchange where
  mode : SpiMode
  frame : List Byte
  carries : Bool
  clearsDropped : Bool
  clearsReset : Bool
  deriving DecidableEq, Repr

/-- What one request port holds (chapter 9). -/
structure PortState where
  window : List Entry
  exchange : Option Exchange
  droppedFlag : Bool
  resetFlag : Bool
  responseAttn : Bool
  noticeAttn : Bool
  attn : Level
  staged : List ScanEntryArgs
  deriving DecidableEq, Repr

/-! ### The machine -/

/-- The state of the TM440, and the queue of the commands that are waiting. -/
structure State where
  held : Bool
  points : Vector (Option Point) 512
  epoch : BitVec 8
  counts : PerPort Nat
  batches : PerPort (Option Batch)
  notices : PerPort NoticeUnit
  outputs : Vector Output 8
  orders : Vector (Option Order) 32
  executor : Option Run
  scanner : Option Scanner
  tickGen : TickGen
  timers : Vector Timer 4
  lines : Vector InLine 8
  ports : PerPort PortState
  config : PortSet
  pending : List Instr
  deriving DecidableEq, Repr

/-- The spec gives the part no way to stop, so no command faults. -/
inductive Fault where
  deriving DecidableEq, Repr

/-- Why a command has no meaning. -/
inductive Refusal where
  /-- Raised by exec for a command without a meaning; safe. No command of this model is refused. -/
  | notModelled (mnemonic : String)
  deriving DecidableEq, Repr

/-- What a command answers. -/
abbrev Result := Host.Outcome State Fault Refusal

/-- The same value for every port. -/
def PerPort.all {α : Type} (x : α) : PerPort α := ⟨x, x, x, x⟩

/-- A port's part of the notice unit after cold reset (R91). -/
def NoticeUnit.reset : NoticeUnit :=
  { subs := Vector.replicate 512 none, queue := [], owed := [] }

/-- An output line after cold reset (R102). -/
def Output.reset : Output :=
  { point := none, safe := .low, invert := false, level := .low }

/-- The tick generator in cold reset (R157): the first interval begins at its end. -/
def TickGen.reset : TickGen :=
  { period := Config.tickPeriodReset, running := true, interval := none, dueTable := 0, dueArbiter := 0 }

/-- An interval timer after cold reset (R160). -/
def Timer.reset : Timer :=
  { period := 1, mode := .oneShot, running := false, remaining := 0, due := 0 }

/-- A trigger input line in cold reset (R165). DESIGN CHOICE (log 5): low until its end takes the level from the pin. -/
def InLine.reset : InLine := { edge := .off, settled := .low }

/-- A request port after cold reset (R192, R200). -/
def PortState.reset : PortState :=
  { window := [], exchange := none, droppedFlag := false, resetFlag := true, responseAttn := true, noticeAttn := true,
    attn := .high, staged := [] }

/-- The part as cold reset leaves it and holds it until its end (R30, log 4). -/
def State.reset : State :=
  { held := true
    points := Vector.replicate 512 none
    epoch := 0
    counts := .all 0
    batches := .all none
    notices := .all .reset
    outputs := Vector.replicate 8 .reset
    orders := Vector.replicate 32 none
    executor := none
    scanner := none
    tickGen := .reset
    timers := Vector.replicate 4 .reset
    lines := Vector.replicate 8 .reset
    ports := .all .reset
    config := ⟨true, false, false, false⟩
    pending := [] }

end Sys2Proof.Machine
end

