-- ==== Sys2Proof/Machine/Ops.lean ====
section
/-! DEFINITION. Machine/Ops.lean: the named reads and writes of State, and the one form every command's event has. -/

namespace Sys2Proof.Machine

/-! ### One value per port, and tables of fixed length -/

/-- The four ports in order. -/
def Port.list : List Port := [.a, .b, .c, .d]

/-- The value of one port. -/
def PerPort.get {α : Type} (v : PerPort α) : Port → α
  | .a => v.a
  | .b => v.b
  | .c => v.c
  | .d => v.d

/-- Replace the value of one port. -/
def PerPort.set {α : Type} (v : PerPort α) (p : Port) (x : α) : PerPort α :=
  match p with
  | .a => { v with a := x }
  | .b => { v with b := x }
  | .c => { v with c := x }
  | .d => { v with d := x }

/-- Change the value of every port. -/
def PerPort.map {α β : Type} (f : Port → α → β) (v : PerPort α) : PerPort β :=
  ⟨f .a v.a, f .b v.b, f .c v.c, f .d v.d⟩

/-- Change every element of a table. -/
def mapTable {α β : Type} {n : Nat} (f : α → β) (v : Vector α n) : Vector β n :=
  ⟨⟨v.toList.map f⟩, by simp⟩

/-- Combine two tables of the same length element by element. -/
def zipTable {α β γ : Type} {n : Nat} (f : α → β → γ) (v : Vector α n) (w : Vector β n) : Vector γ n :=
  ⟨⟨List.zipWith f v.toList w.toList⟩, by simp⟩

/-- The indices of a table with their elements, in ascending order. -/
def entriesOf {α : Type} {n : Nat} (v : Vector α n) : List (Fin n × α) :=
  (List.finRange n).zip v.toList

/-- The results of `f` on every element, or none when `f` fails on one: a check made of a whole list before any is taken. -/
def allSome {α β : Type} (f : α → Option β) : List α → Option (List β)
  | [] => some []
  | x :: xs =>
    match f x, allSome f xs with
    | some y, some ys => some (y :: ys)
    | _, _ => none

/-! ### Point slots -/

/-- The record in a slot, none for an undefined slot (R1). -/
def State.slot (s : State) (i : PointIx) : Option Point := s.points[i.val]

/-- Replace what a slot holds. -/
def State.setSlot (s : State) (i : PointIx) (x : Option Point) : State :=
  { s with points := s.points.set i.val x }

/-- Change the record of a defined slot. -/
def State.modifySlot (s : State) (i : PointIx) (f : Point → Point) : State :=
  s.setSlot i ((s.slot i).map f)

/-- Change the record of every defined slot, each on its own. -/
def State.mapPoints (s : State) (f : Point → Point) : State := { s with points := mapTable (Option.map f) s.points }

/-- The point k places after i. R113 keeps every run within the table, so the sum never passes 511. -/
def PointIx.plus (i : PointIx) (k : Nat) : PointIx := Fin.ofNat 512 (i.val + k)

/-- The n points from i on, in ascending order. -/
def PointIx.run (i : PointIx) (n : Nat) : List PointIx := (List.range n).map (PointIx.plus i)

/-! ### Holders -/

/-- The party that a holder is, none for a free point. -/
def Holder.party : Holder → Option Party
  | .none => Option.none
  | .port claim => some (.port claim.port)
  | .scanner => some .scanner
  | .order n => some (.order n)

/-- The point is held by that party. -/
def Point.heldBy (pt : Point) (w : Party) : Bool := pt.holder.party = some w

/-- The claim rights include the port (R7). -/
def Rights.hasPort (r : Rights) (p : Port) : Bool := r.ports.get p

/-! ### The parts held once per port -/

/-- Replace one port's part of the notice unit. -/
def State.setNotices (s : State) (p : Port) (u : NoticeUnit) : State :=
  { s with notices := s.notices.set p u }

/-- Replace one port's batch. -/
def State.setBatch (s : State) (p : Port) (b : Option Batch) : State :=
  { s with batches := s.batches.set p b }

/-- Replace one port's count of held points and placed waits (R35). -/
def State.setCount (s : State) (p : Port) (n : Nat) : State :=
  { s with counts := s.counts.set p n }

/-- Replace what one request port holds. -/
def State.setPort (s : State) (p : Port) (x : PortState) : State :=
  { s with ports := s.ports.set p x }

/-- The subscription of a port to a point (R71). -/
def State.sub (s : State) (p : Port) (i : PointIx) : Option Sub := (s.notices.get p).subs[i.val]

/-! ### Orders, timers, lines -/

/-- The record of an order, none for an EMPTY slot (R110). -/
def State.order (s : State) (n : OrderIx) : Option Order := s.orders[n.val]

/-- Replace the record of an order slot. -/
def State.setOrder (s : State) (n : OrderIx) (o : Option Order) : State :=
  { s with orders := s.orders.set n.val o }

/-- Change the record of an order that is not EMPTY. -/
def State.modifyOrder (s : State) (n : OrderIx) (f : Order → Order) : State :=
  s.setOrder n ((s.order n).map f)

/-- Replace a timer. -/
def State.setTimer (s : State) (n : Fin 4) (t : Timer) : State :=
  { s with timers := s.timers.set n.val t }

/-- Replace a trigger input line. -/
def State.setLine (s : State) (n : Fin 8) (l : InLine) : State :=
  { s with lines := s.lines.set n.val l }

/-- Replace an output line. -/
def State.setOutput (s : State) (n : Fin 8) (o : Output) : State :=
  { s with outputs := s.outputs.set n.val o }

/-- Add 1 to a count that saturates at 65535 (R111, R140). -/
def countUp (n : Nat) : Nat := if n < Config.countMax then n + 1 else n

/-! ### Windows -/

/-- The request of an ACCEPTED entry. -/
def Entry.request? : Entry → Option Request
  | .accepted _ r => some r
  | .answered _ _ _ => none

/-- The entry is ANSWERED. -/
def Entry.isAnswered : Entry → Bool
  | .accepted _ _ => false
  | .answered _ _ _ => true

/-- The request of the oldest ACCEPTED entry of a window (R177). -/
def oldestAccepted (window : List Entry) : Option Request := window.findSome? Entry.request?

/-- The request that a port presents to its owner (R177). -/
def State.presented (s : State) (p : Port) : Option Request := oldestAccepted (s.ports.get p).window

/-- The oldest ACCEPTED entry becomes ANSWERED in place, with its SEQ (R177). -/
def answerOldest (status : Status) (body : Body) : List Entry → List Entry
  | [] => []
  | .accepted seq _ :: rest => .answered seq status body :: rest
  | .answered seq st b :: rest => .answered seq st b :: answerOldest status body rest

/-- A port's presented request is answered by its owner (R177). -/
def State.answer (s : State) (p : Port) (status : Status) (body : Body) : State :=
  let ps := s.ports.get p
  s.setPort p { ps with window := answerOldest status body ps.window }

end Sys2Proof.Machine
end

