-- ==== Sys2Proof/Machine/Flags.lean ====
section
/-! DEFINITION. Machine/Flags.lean: the port status and the attention line, and the one form of an event: nothing while the part
is held in reset, nothing when the event is not due, and the attention lines evaluated again at its end (R182). -/

namespace Sys2Proof.Machine

/-- The responses ready: the ANSWERED entries from the head up to the first ACCEPTED one (R176). -/
def responsesReady (window : List Entry) : Nat := (window.takeWhile Entry.isAnswered).length

/-- The number of ACCEPTED entries of a window. -/
def acceptedCount (window : List Entry) : Nat := (window.filter fun e => !e.isAnswered).length

/-- The notice count of a port is above 0 or its owed flag is set (R95). -/
def NoticeUnit.calls (u : NoticeUnit) : Bool := !u.queue.isEmpty || !u.owed.isEmpty

/-- The level of ATTNn that a port's state asks for: low while asserted (R182). -/
def attnLevel (ps : PortState) (u : NoticeUnit) : Level :=
  if (responsesReady ps.window > 0 && ps.responseAttn) || (u.calls && ps.noticeAttn) then .low else .high

/-- Every port re-evaluates its attention line (R182). -/
def State.settle (s : State) : State :=
  { s with ports := s.ports.map fun p ps => { ps with attn := attnLevel ps (s.notices.get p) } }

/-- One event of the part. While the part is held in reset nothing else is taken (R30, log 4); an event that is not due is
passed over (log 2); one that is due has its effect, and the attention lines follow (R182). -/
def event (due : Bool) (s : State) (effect : State → State) : Result :=
  if s.held || !due then .next s else .next (effect s).settle

/-- The execution of a request as one event: due when it is the port's oldest ACCEPTED entry (R177, log 1). -/
def onRequest (p : Port) (r : Request) (s : State) (effect : State → State) : Result :=
  event (s.presented p = some r) s effect

end Sys2Proof.Machine
end

