-- ==== Sys2Proof/Machine/Operands.lean ====
section
/-! DEFINITION. Machine/Operands.lean: the operand forms of requests: indices, numbers and the codes of Table 10.1-1, read and
written (R193). A reader answers none for a value its owner refuses. -/

namespace Sys2Proof.Machine

/-- A point index of 511 or less (R1). -/
def pointIx? (h : Half) : Option PointIx :=
  if hlt : h.toNat < 512 then some ⟨h.toNat, hlt⟩ else none

/-- An order number of 31 or less (R110). -/
def orderIx? (b : Byte) : Option OrderIx :=
  if hlt : b.toNat < 32 then some ⟨b.toNat, hlt⟩ else none

/-- A timer number of 3 or less (R161). -/
def timerIx? (b : Byte) : Option (Fin 4) :=
  if hlt : b.toNat < 4 then some ⟨b.toNat, hlt⟩ else none

/-- A line number of 7 or less (R103, R166). -/
def lineIx? (b : Byte) : Option (Fin 8) :=
  if hlt : b.toNat < 8 then some ⟨b.toNat, hlt⟩ else none

/-- A port code naming a port. -/
def port? (b : Byte) : Option Port :=
  match b.toNat with
  | 1 => some .a
  | 2 => some .b
  | 3 => some .c
  | 4 => some .d
  | _ => none

/-- The code of a port. -/
def portCode : Port → Byte
  | .a => 0x01
  | .b => 0x02
  | .c => 0x03
  | .d => 0x04

/-- The code of a holder, none included. -/
def holderCode : Option Party → Byte
  | none => 0x00
  | some (.port p) => portCode p
  | some .scanner => 0x05
  | some (.order n) => BitVec.ofNat 8 (0x20 + n.val)

/-- The kind that a code names. -/
def kind? (b : Byte) : Option Kind :=
  match b.toNat with
  | 0 => some .u32
  | 1 => some .s32
  | 2 => some .bool
  | _ => none

/-- The limit action that a code names. -/
def limitAction? (b : Byte) : Option LimitAction :=
  match b.toNat with
  | 0 => some .reject
  | 1 => some .clamp
  | _ => none

/-- The code of a quality. -/
def qualityCode : Quality → Byte
  | .unset => 0x00
  | .good => 0x01
  | .suspect => 0x02
  | .stale => 0x03

/-- The claim mode that a code names. -/
def claimMode? (b : Byte) : Option ClaimMode :=
  match b.toNat with
  | 0 => some .hold
  | 1 => some .writeOnce
  | _ => none

/-- The code of an order state; none stands for EMPTY. -/
def orderStateCode : Option OrderPhase → Byte
  | none => 0x00
  | some .disarmed => 0x01
  | some .armed => 0x02
  | some .retired => 0x03

/-- The code of a run flag. -/
def runFlagCode : RunFlag → Byte
  | .none => 0x00
  | .running => 0x01
  | .stopping => 0x02

/-- The code of a source step. -/
def sourceStepCode : SourceStep → Byte
  | .fixed => 0x00
  | .step => 0x01
  | .stepWrap _ => 0x02

/-- The code of a transform. -/
def transformCode : Transform → Byte
  | .copy => 0x00
  | .scale _ _ => 0x01
  | .invert => 0x02
  | .compare _ => 0x03

/-- A chain line field: none, CHAIN0 to CHAIN7, or a value that is neither. -/
def chain? (b : Byte) : Option (Option (Fin 8)) :=
  if b = 0xFF then some none
  else if hlt : b.toNat < 8 then some (some ⟨b.toNat, hlt⟩) else none

/-- The code of a chain line. -/
def chainCode : Option (Fin 8) → Byte
  | none => 0xFF
  | some n => BitVec.ofNat 8 n.val

/-- The code of a scanner state; none stands for EMPTY. -/
def scanStateCode : Option ScanPhase → Byte
  | none => 0x00
  | some .defined => 0x01
  | some .armed => 0x02
  | some .converting => 0x03

/-- The scan mode that a code names. -/
def scanMode? (b : Byte) : Option ScanMode :=
  match b.toNat with
  | 0 => some .single
  | 1 => some .continuous
  | _ => none

/-- The code of a scan mode. -/
def scanModeCode : ScanMode → Byte
  | .single => 0x00
  | .continuous => 0x01

/-- A code that is off, low, STOP or ONE_SHOT at 00h and on, high, RUN or PERIODIC at 01h. -/
def twoWay? (b : Byte) : Option Bool :=
  match b.toNat with
  | 0 => some false
  | 1 => some true
  | _ => none

/-- A flag or a two-way code as the part sends it. -/
def flagCode (x : Bool) : Byte := if x then 0x01 else 0x00

/-- The code of a level. -/
def levelCode : Level → Byte
  | .low => 0x00
  | .high => 0x01

/-- The level that a code names. -/
def level? (b : Byte) : Option Level := (twoWay? b).map fun x => if x then .high else .low

/-- The timer mode that a code names. -/
def timerMode? (b : Byte) : Option TimerMode := (twoWay? b).map fun x => if x then .periodic else .oneShot

/-- The code of a timer mode. -/
def timerModeCode : TimerMode → Byte
  | .oneShot => 0x00
  | .periodic => 0x01

/-- The edge setting that a code names. -/
def edge? (b : Byte) : Option EdgeSetting :=
  match b.toNat with
  | 0 => some .off
  | 1 => some .rise
  | 2 => some .fall
  | 3 => some .both
  | _ => none

/-- The code of an edge setting. -/
def edgeCode : EdgeSetting → Byte
  | .off => 0x00
  | .rise => 0x01
  | .fall => 0x02
  | .both => 0x03

/-- A trigger source with its number in range (R113); the number of REQUEST and SCAN_END is not examined (R193). -/
def trigger? (t : TriggerArgs) : Option Trigger :=
  match t.cls.toNat with
  | 0 => some .request
  | 1 => if h : t.number.toNat < 8 then some (.line ⟨t.number.toNat, h⟩) else none
  | 2 => if h : t.number.toNat < 4 then some (.timer ⟨t.number.toNat, h⟩) else none
  | 3 => if h : t.number.toNat < 8 then some (.chain ⟨t.number.toNat, h⟩) else none
  | 4 => some .scanEnd
  | 5 => (pointIx? t.number).map .point
  | _ => none

/-- A trigger source that the scanner may select: not SCAN_END and not a POINT source (R142). -/
def scanTrigger? (t : TriggerArgs) : Option Trigger :=
  match trigger? t with
  | some .scanEnd => none
  | some (.point _) => none
  | x => x

/-- A trigger source as a frame carries it; REQUEST and SCAN_END are sent with the number 0 (R193). -/
def triggerArgs : Trigger → TriggerArgs
  | .request => ⟨0x00, 0⟩
  | .line n => ⟨0x01, BitVec.ofNat 16 n.val⟩
  | .timer n => ⟨0x02, BitVec.ofNat 16 n.val⟩
  | .chain n => ⟨0x03, BitVec.ofNat 16 n.val⟩
  | .scanEnd => ⟨0x04, 0⟩
  | .point i => ⟨0x05, BitVec.ofNat 16 i.val⟩

/-- Claim rights: bits 0 to 4 stand for A, B, C, D and INTERNAL; bits 5 to 7 are not examined (R193). -/
def rightsOf (b : Byte) : Rights :=
  { ports := ⟨b.getLsbD 0, b.getLsbD 1, b.getLsbD 2, b.getLsbD 3⟩, internal := b.getLsbD 4 }

/-- No party is in the claim rights (R9). -/
def Rights.isEmpty (r : Rights) : Bool :=
  !(r.ports.a || r.ports.b || r.ports.c || r.ports.d || r.internal)

/-- A port set as a byte: bits 0 to 3 stand for A to D (R193). -/
def portSetCode (v : PortSet) : Byte :=
  (if v.a then 0x01#8 else 0) ||| (if v.b then 0x02#8 else 0) ||| (if v.c then 0x04#8 else 0) |||
    (if v.d then 0x08#8 else 0)

/-- The status code of Table 10.4-1. -/
def statusCode : Status → Byte
  | .ok => 0x00
  | .okClamped => 0x01
  | .waiting => 0x02
  | .idle => 0x03
  | .badLength => 0x10
  | .badCheck => 0x11
  | .badCode => 0x12
  | .noRight => 0x13
  | .badArg => 0x20
  | .notDefined => 0x21
  | .held => 0x22
  | .notHolder => 0x23
  | .notWaiting => 0x24
  | .outOfRange => 0x25
  | .limit => 0x26
  | .busy => 0x27
  | .state => 0x28
  | .noBatch => 0x30
  | .batchFull => 0x31
  | .batchRefused => 0x32
  | .tableReset => 0x40

/-- The number of a cause (Table 10.5-1). -/
def Cause.number : Cause → Nat
  | .subscribed => 0
  | .written => 1
  | .changed => 2
  | .quality => 3
  | .clamped => 4
  | .undefined => 5
  | .claimGranted => 6
  | .claimLapsed => 7
  | .waitExpired => 8
  | .orderRetired => 9
  | .orderFault => 10
  | .resent => 11

/-- A cause set with one cause added. -/
def CauseSet.add (cs : CauseSet) (c : Cause) : CauseSet := cs ||| BitVec.twoPow 12 c.number

/-- The cause is in the set. -/
def CauseSet.has (cs : CauseSet) (c : Cause) : Bool := cs.getLsbD c.number

/-- The set of no cause. -/
def CauseSet.empty : CauseSet := 0

end Sys2Proof.Machine
end

