-- ==== Sys2Proof/Machine/Values.lean ====
section
/-! DEFINITION. Machine/Values.lean: how the 32 bits of a point are read as a number, compared with limits, and computed with. -/

namespace Sys2Proof.Machine

/-- The number that 32 bits are at a point of this kind (R2). -/
def Kind.num (k : Kind) (v : Word) : Int :=
  match k with
  | .u32 => v.toNat
  | .s32 => v.toInt
  | .bool => v.toNat

/-- The least number within the limits (R3). -/
def PointDef.lowNum (d : PointDef) : Int := d.kind.num d.low

/-- The greatest number within the limits (R3). -/
def PointDef.highNum (d : PointDef) : Int := d.kind.num d.high

/-- The number lies within the limits, both included (R3, R19). -/
def PointDef.inRange (d : PointDef) (x : Int) : Bool := d.lowNum ≤ x && x ≤ d.highNum

/-- What is stored of a written number: its 32 bits, or the nearer limit when it lies outside (R3, R128, R149). -/
def PointDef.fit (d : PointDef) (x : Int) : Word :=
  if x < d.lowNum then d.low else if d.highNum < x then d.high else BitVec.ofInt 32 x

/-- A write of this number is refused for its range (R3): it lies outside and the limit action is REJECT. -/
def PointDef.rejects (d : PointDef) (x : Int) : Bool := !d.inRange x && d.limitAction = .reject

/-- Multiply by a gain in units of 1/256, truncate toward zero, add the offset: exact, with no wrap (R127, R148). -/
def scaled (gain : BitVec 16) (offset : Word) (x : Int) : Int := (x * gain.toInt).tdiv 256 + offset.toInt

/-- The result of a transform on a source number; a threshold is read according to the source's kind (R127). -/
def Transform.result (t : Transform) (kind : Kind) (x : Int) : Int :=
  match t with
  | .copy => x
  | .scale gain offset => scaled gain offset x
  | .invert => if x = 0 then 1 else 0
  | .compare threshold => if kind.num threshold ≤ x then 1 else 0

end Sys2Proof.Machine
end

