-- ==== Sys2Proof/Machine/Notifying.lean ====
section
/-! DEFINITION. Machine/Notifying.lean: raising causes, the notice queue and the owed map (chapter 4), and what a write means to
a subscription. -/

namespace Sys2Proof.Machine

/-- The number of a subject, in the order in which the owed drain takes them: points, then orders (R88). -/
def Subject.number : Subject → Nat
  | .point i => i.val
  | .order n => 512 + n.val

/-- The state of a subject as it stands (R79, R82, R88). -/
def State.subjectState (s : State) : Subject → SubjectState
  | .point i =>
    match s.slot i with
    | some pt => .point pt.value pt.quality pt.seq
    | none => .point 0 .unset 0
  | .order n =>
    match s.order n with
    | some o => .order o.remaining (some o.phase) o.missed
    | none => .order 0 none 0

/-- A further cause for the subject of a queued notice (R83). -/
def Notice.merge (n : Notice) (c : Cause) (st : SubjectState) : Notice :=
  { n with
    causes := CauseSet.add n.causes c
    state := st
    merged := if n.merged < Config.mergedMax then n.merged + 1 else n.merged }

/-- Add a cause to an owed map, which is kept in rising order of subjects (R85). -/
def oweCause (subject : Subject) (c : Cause) : List Owed → List Owed
  | [] => [⟨subject, CauseSet.add CauseSet.empty c⟩]
  | o :: rest =>
    if o.subject = subject then ⟨subject, CauseSet.add o.causes c⟩ :: rest
    else if subject.number < o.subject.number then ⟨subject, CauseSet.add CauseSet.empty c⟩ :: o :: rest
    else o :: oweCause subject c rest

/-- Take a cause: it merges (R83), makes a notice (R84) or is owed (R85). -/
def NoticeUnit.take (u : NoticeUnit) (subject : Subject) (c : Cause) (st : SubjectState) : NoticeUnit :=
  if u.queue.any fun n => n.subject = subject then
    { u with queue := u.queue.map fun n => if n.subject = subject then n.merge c st else n }
  else if u.queue.length < Config.queueSize then
    { u with queue := u.queue ++ [⟨subject, CauseSet.add CauseSet.empty c, st, 0⟩] }
  else { u with owed := oweCause subject c u.owed }

/-- Raise a cause for a port, with the subject's state as it stands. -/
def State.raise (s : State) (p : Port) (subject : Subject) (c : Cause) : State :=
  s.setNotices p ((s.notices.get p).take subject c (s.subjectState subject))

/-- A cause to be raised: for a port, a subject and the cause. -/
structure Raise where
  port : Port
  subject : Subject
  cause : Cause
  deriving DecidableEq, Repr

/-- Raise causes in the order given (R81). -/
def State.raiseAll (s : State) (rs : List Raise) : State := rs.foldl (fun s r => s.raise r.port r.subject r.cause) s

/-- The notice that the owed drain builds (R88). -/
def Owed.resend (o : Owed) (st : SubjectState) : Notice :=
  { subject := o.subject, causes := CauseSet.add o.causes .resent, state := st, merged := 0 }

/-- The owed drain (R88): the lowest owed subjects go to the tail of the queue while it has room. -/
def State.drained (s : State) (u : NoticeUnit) : NoticeUnit :=
  let room := Config.queueSize - u.queue.length
  { u with
    queue := u.queue ++ (u.owed.take room).map fun o => o.resend (s.subjectState o.subject)
    owed := u.owed.drop room }

/-! ### What an accepted write means to a subscription -/

/-- The difference of two values taken without sign, exactly and by kind (R75). -/
def Kind.distance (k : Kind) (v w : Word) : Nat := (k.num v - k.num w).natAbs

/-- The cause by the condition of a subscription at an accepted write that stores v (R74, R75). -/
def Sub.conditionCause (sub : Sub) (k : Kind) (v : Word) : Option Cause :=
  match sub.condition with
  | .write => some .written
  | .change => if v = sub.reference then none else some .changed
  | .deadband none => if v = sub.reference then none else some .changed
  | .deadband (some least) => if least.toNat ≤ k.distance v sub.reference then some .changed else none

/-- The subscription after an accepted write that stores v: its reference follows when the condition is met (R74, R75). -/
def Sub.afterWrite (sub : Sub) (k : Kind) (v : Word) : Sub :=
  match sub.conditionCause k v with
  | some _ => { sub with reference := v }
  | none => sub

/-- The causes an accepted write raises for one subscription (R74, R75, R76). -/
def Sub.causes (sub : Sub) (k : Kind) (v : Word) (before after : Quality) (clamped : Bool) : List Cause :=
  (sub.conditionCause k v).toList ++ (if before = after then [] else [.quality]) ++ (if clamped then [.clamped] else [])

/-- The ports that subscribe to a point. -/
def State.subscribers (s : State) (i : PointIx) : List Port := Port.list.filter fun p => (s.sub p i).isSome

/-- Remove every subscription to a point (R80). -/
def State.dropSubs (s : State) (i : PointIx) : State :=
  { s with notices := s.notices.map fun _ u => { u with subs := u.subs.set i.val none } }

end Sys2Proof.Machine
end

