-- ==== Sys2Proof/Machine/Claiming.lean ====
section
/-! DEFINITION. Machine/Claiming.lean: the claim record of a point and its changes: grant, restart, release with handover, and the
claims of internal holders (chapter 2). -/

namespace Sys2Proof.Machine

/-- A lease of this length, fresh; length 0 is no lease (R33). -/
def freshLease (length : Nat) : Option Lease := if length = 0 then none else some ⟨length, length⟩

/-- The claim restarts its lease, if it has one (R33). -/
def PortClaim.restart (c : PortClaim) : PortClaim :=
  { c with lease := c.lease.map fun l => { l with remaining := l.length } }

/-- The holder restarts its lease; only a port has one (R32, R33). -/
def Holder.restart : Holder → Holder
  | .port c => .port c.restart
  | h => h

/-- The holder is a port in WRITE_ONCE mode (R34). -/
def Holder.isOnce : Holder → Bool
  | .port c => c.mode = .writeOnce
  | _ => false

/-- The claim that a wait becomes at handover: its own lease, fresh, and its own mode (R46). -/
def Wait.claim (w : Wait) : PortClaim := { port := w.port, lease := freshLease w.lease, mode := w.mode }

/-- The port that receives the point when it loses its holder (R46). -/
def Point.heir (pt : Point) : Option Port := pt.waiters.head?.map Wait.port

/-- The point loses its holder: it passes to the head of its waiter list or becomes free (R46). -/
def Point.release (pt : Point) : Point :=
  match pt.waiters with
  | [] => { pt with holder := .none }
  | w :: rest => { pt with holder := .port w.claim, waiters := rest }

/-- The causes of a handover (R46): CLAIM_GRANTED for the new holder. -/
def Point.heirRaises (pt : Point) (i : PointIx) : List Raise :=
  pt.heir.toList.map fun q => ⟨q, .point i, .claimGranted⟩

/-- A port's count falls by 1 (R35). -/
def State.countDown (s : State) (p : Port) : State := s.setCount p (s.counts.get p - 1)

/-- The port that holds the point releases it, with handover (R42, R34). -/
def State.releasePoint (s : State) (p : Port) (i : PointIx) : State :=
  match s.slot i with
  | none => s
  | some pt => ((s.setSlot i (some pt.release)).countDown p).raiseAll (pt.heirRaises i)

/-- The point is released when the party holds it. -/
def Point.releaseFrom (pt : Point) (w : Party) : Point := if pt.heldBy w then pt.release else pt

/-- Every point the party holds is released, each with handover (R47, R49). -/
def State.releaseHeld (s : State) (w : Party) : State :=
  s.mapPoints fun pt => pt.releaseFrom w

/-- The causes of releasing every point a party holds, in ascending point order (R47, R81). -/
def State.releaseRaises (s : State) (w : Party) : List Raise :=
  (entriesOf s.points).flatMap fun (i, x) =>
    match x with
    | some pt => if pt.heldBy w then pt.heirRaises i else []
    | none => []

/-- The number of points a party holds. -/
def State.heldCount (s : State) (w : Party) : Nat := s.points.toList.countP fun x => x.any fun pt => pt.heldBy w

/-- The number of waits a port has placed. -/
def State.waitCount (s : State) (p : Port) : Nat :=
  s.points.toList.countP fun x => x.any fun pt => pt.waiters.any fun w => w.port = p

/-- The refusal of an internal claim on one point (R48). -/
def State.internalRefusal (s : State) (i : PointIx) : Option (Status × Option Party) :=
  match s.slot i with
  | none => some (.notDefined, none)
  | some pt =>
    if !pt.defn.rights.internal then some (.noRight, none)
    else match pt.holder.party with
      | some w => some (.held, some w)
      | none => none

/-- The first point of a destination list that refuses the claim, with its place in the list from 0 (R48). -/
def State.firstInternalRefusal (s : State) (dests : List PointIx) : Option (Nat × PointIx × Status × Option Party) :=
  dests.zipIdx.findSome? fun (i, k) => (s.internalRefusal i).map fun (st, w) => (k, i, st, w)

/-- Every destination is granted to an internal holder: no lease, no mode, an empty waiter list (R48). -/
def State.grantInternal (s : State) (h : Holder) (dests : List PointIx) : State :=
  dests.foldl (fun s i => s.modifySlot i fun pt => { pt with holder := h, waiters := [] }) s

end Sys2Proof.Machine
end

