-- ==== Sys2Proof/Machine/Triggering.lean ====
section
/-! DEFINITION. Machine/Triggering.lean: the trigger router (8.4), how orders and the scanner take a trigger, and the start of a
run and of a pass. -/

namespace Sys2Proof.Machine

/-- An ARMED order takes a trigger (R120). -/
def Order.accept (o : Order) : Order :=
  if o.pending < Config.pendingMax then { o with pending := o.pending + 1 } else { o with missed := countUp o.missed }

/-- The order takes a trigger of this source: it selects the source and is ARMED (R120, R167). -/
def Order.hears (o : Order) (t : Trigger) : Bool := o.defn.trigger = t && o.phase = .armed

/-- The order is ARMED with a trigger not yet served (R123). -/
def Order.ready (o : Order) : Bool := o.phase = .armed && 0 < o.pending

/-- The lowest-numbered ready order (R123). -/
def State.lowestReady (s : State) : Option OrderIx :=
  (entriesOf s.orders).findSome? fun (n, o) => if o.any Order.ready then some n else none

/-- The executor, when free, starts the lowest-numbered ready order (R123). -/
def State.startRun (s : State) : State :=
  match s.executor with
  | some _ => s
  | none =>
    match s.lowestReady with
    | none => s
    | some n =>
      { s.modifyOrder n fun o => { o with pending := o.pending - 1 } with
        executor := some { order := n, position := 0, stopping := false } }

/-- A run in flight is stopped: its copy under way has yet to be taken (R119, R135). -/
def Run.stop (r : Run) : Run := { r with stopping := true }

/-- A pass starts at entry 0 (R147). -/
def Scanner.startPass (sc : Scanner) : Scanner := { sc with phase := .converting, current := 0 }

/-- The scanner takes a trigger (R145). One that finds the flag set is counted as missed in its own event, and stays counted when
a SCAN_DISARM follows, where R154 reads otherwise (log 19, DESIGN CHOICE). -/
def Scanner.accept (sc : Scanner) : Scanner :=
  match sc.phase, sc.mode with
  | .defined, _ => sc
  | .armed, _ => sc.startPass
  | .converting, .single => if sc.pendingPass then { sc with missed := countUp sc.missed } else { sc with pendingPass := true }
  | .converting, .continuous => sc

/-- Every ARMED order that selects the source takes the trigger, and only then does the executor choose (R167). -/
def State.deliverToOrders (s : State) (t : Trigger) : State :=
  State.startRun { s with orders := mapTable (fun o => o.map fun o => if o.hears t then o.accept else o) s.orders }

/-- The scanner takes the trigger when it selects the source (R167). -/
def State.deliverToScanner (s : State) (t : Trigger) : State :=
  { s with scanner := s.scanner.map fun sc => if sc.trigger = t then sc.accept else sc }

/-- The trigger router delivers a routed trigger to every consumer that selects its source (R167). -/
def State.deliver (s : State) (t : Trigger) : State := (s.deliverToScanner t).deliverToOrders t

end Sys2Proof.Machine
end

