-- ==== Sys2Proof/Machine/Writing.lean ====
section
/-! DEFINITION. Machine/Writing.lean: the path that every accepted write takes (R20, R21), and the levels of the output lines. -/

namespace Sys2Proof.Machine

/-- The level that a line's binding and its point ask for (R104). -/
def State.lineLevel (s : State) (o : Output) : Level :=
  match o.point.bind s.slot with
  | none => o.safe
  | some pt =>
    if pt.quality = .good || pt.quality = .suspect then
      (if (pt.value ≠ 0) != o.invert then .high else .low)
    else o.safe

/-- Re-evaluate every line bound to a point that `hit` names (R105). -/
def State.driveLines (s : State) (hit : PointIx → Bool) : State :=
  { s with outputs := mapTable (fun o => if o.point.any hit then { o with level := s.lineLevel o } else o) s.outputs }

/-- The quality stored of a write marked doubtful or not (R18, R24). -/
def writtenQuality (suspect : Bool) : Quality := if suspect then .suspect else .good

/-- The point after an accepted write (R20), with the lease of a port holder restarted (R33). -/
def Point.written (pt : Point) (v : Word) (q : Quality) : Point :=
  { pt with value := v, quality := q, seq := pt.seq + 1, age := 0, holder := pt.holder.restart }

/-- The causes an accepted write raises for every subscriber (R74 to R76). -/
def State.writeRaises (s : State) (i : PointIx) (pt : Point) (v : Word) (q : Quality) (clamped : Bool) : List Raise :=
  Port.list.flatMap fun p =>
    match s.sub p i with
    | some sub => (sub.causes pt.defn.kind v pt.quality q clamped).map fun c => ⟨p, .point i, c⟩
    | none => []

/-- Every subscription to the point follows the write with its reference (R74, R75). -/
def State.followSubs (s : State) (i : PointIx) (k : Kind) (v : Word) : State :=
  { s with notices := s.notices.map fun _ u =>
      { u with subs := u.subs.set i.val (u.subs[i.val].map fun sub => sub.afterWrite k v) } }

/-- A write takes effect at the table and at its neighbours (R20, R21), but for the causes it raises (writeRaises) and the end of
a WRITE_ONCE claim. -/
def State.store (s : State) (i : PointIx) (pt : Point) (v : Word) (q : Quality) : State :=
  let s := s.setSlot i (some (pt.written v q))
  let s := s.followSubs i pt.defn.kind v
  let s := s.driveLines fun j => j = i
  s.deliver (.point i)

/-- A write takes effect and its causes are raised at once. -/
def State.storeAndRaise (s : State) (i : PointIx) (pt : Point) (v : Word) (q : Quality) (clamped : Bool) : State :=
  (s.store i pt v q).raiseAll (s.writeRaises i pt v q clamped)

end Sys2Proof.Machine
end

