-- ==== Sys2Proof/Machine/Batches.lean ====
section
/-! DEFINITION. Machine/Batches.lean: the requests the batch stage owns: BATCH_OPEN, BATCH_PUT, BATCH_COMMIT, BATCH_DISCARD
(chapter 3). -/

namespace Sys2Proof.Machine

/-- BATCH_OPEN: R60. -/
def execBatchOpen (p : Port) (s : State) : Result :=
  onRequest p .batchOpen s fun s =>
    match s.batches.get p with
    | some b => s.answer p .state (.entries b.length)
    | none => (s.setBatch p (some [])).answer p .ok .empty

/-- One staged value: it replaces the point's value in place or joins at the end (R62). -/
def Batch.put (b : Batch) (e : BatchEntry) : Batch :=
  if b.any fun x => x.point = e.point then b.map fun x => if x.point = e.point then e else x
  else b ++ [e]

/-- An entry of BATCH_PUT with its index, none when that is above 511 (R61). -/
def putEntry? (e : PutArgs) : Option BatchEntry := (pointIx? e.point).map fun i => ⟨i, e.value⟩

/-- BATCH_PUT: R61, R62. -/
def execBatchPut (p : Port) (entries : List PutArgs) (s : State) : Result :=
  onRequest p (.batchPut entries) s fun s =>
    match s.batches.get p with
    | none => s.answer p .noBatch .empty
    | some b =>
      match allSome putEntry? entries with
      | none => s.answer p .badArg .empty
      | some es =>
        let b' := es.foldl Batch.put b
        if Config.batchSize < b'.length then s.answer p .batchFull (.entries b.length)
        else (s.setBatch p (some b')).answer p .ok (.entries b'.length)

/-- The check of one batch entry at commit; none passes (R63). -/
def State.commitCheck (s : State) (p : Port) (e : BatchEntry) : Option Status :=
  match s.slot e.point with
  | none => some .notDefined
  | some pt =>
    if !pt.heldBy (.port p) then some .notHolder
    else if pt.defn.rejects (pt.defn.kind.num e.value) then some .outOfRange
    else none

/-- The first entry that fails its check, with its position from 1 (R63, R64). -/
def State.commitBarrier (s : State) (p : Port) (b : Batch) : Option (Nat × PointIx × Status) :=
  b.zipIdx.findSome? fun (e, k) => (s.commitCheck p e).map fun st => (k + 1, e.point, st)

/-- The entry is stored clamped: its value lies outside the limits of its point (R65). -/
def State.clampsEntry (s : State) (e : BatchEntry) : Bool :=
  (s.slot e.point).any fun pt => !pt.defn.inRange (pt.defn.kind.num e.value)

/-- The write of one entry of a commit, quality GOOD (R65); the claim it may end is released later. -/
def State.commitEntry (s : State) (e : BatchEntry) : State :=
  match s.slot e.point with
  | none => s
  | some pt =>
    let x := pt.defn.kind.num e.value
    s.storeAndRaise e.point pt (pt.defn.fit x) .good (!pt.defn.inRange x)

/-- The batch points that a successful commit releases, in ascending order: those held WRITE_ONCE, and with release-after all
(R66). -/
def State.commitReleases (s : State) (b : Batch) (releaseAfter : Bool) : List PointIx :=
  (List.finRange 512).filter fun i =>
    b.any (fun e => e.point = i) && (releaseAfter || (s.slot i).any fun pt => pt.holder.isOnce)

/-- The clamp marks: bit k stands for entry position k + 1 (R67, R198). -/
def State.clampMarks (s : State) (b : Batch) : BitVec 16 :=
  b.zipIdx.foldl (fun m (e, k) => if s.clampsEntry e then m ||| BitVec.twoPow 16 k else m) 0

/-- A commit whose entries all pass: the writes in entry order, then the releases in ascending order (R65, R66). -/
def State.commit (s : State) (p : Port) (b : Batch) (releaseAfter : Bool) : State :=
  let released := s.commitReleases b releaseAfter
  let s := b.foldl State.commitEntry s
  let s := released.foldl (fun s i => s.releasePoint p i) s
  s.setBatch p none

/-- BATCH_COMMIT: R63 to R67. -/
def execBatchCommit (p : Port) (releaseAfter : Bool) (s : State) : Result :=
  onRequest p (.batchCommit releaseAfter) s fun s =>
    match s.batches.get p with
    | none => s.answer p .noBatch .empty
    | some b =>
      match s.commitBarrier p b with
      | some (position, i, cause) => s.answer p .batchRefused (.commitRefused position i cause)
      | none =>
        (s.commit p b releaseAfter).answer p .ok
          (.committed b.length (s.clampMarks b) (s.commitReleases b releaseAfter).length)

/-- BATCH_DISCARD: R68. -/
def execBatchDiscard (p : Port) (s : State) : Result :=
  onRequest p .batchDiscard s fun s =>
    match s.batches.get p with
    | none => s.answer p .noBatch .empty
    | some _ => (s.setBatch p none).answer p .ok .empty

end Sys2Proof.Machine
end

