-- ==== Sys2Proof/Machine/Claims.lean ====
section
/-! DEFINITION. Machine/Claims.lean: the requests the claim arbiter owns: CLAIM, RELEASE, RENEW, WITHDRAW (chapter 2). -/

namespace Sys2Proof.Machine

/-! ### CLAIM -/

/-- The first listed point that is undefined or whose rights leave the port out (R37). -/
def State.claimBarrier (s : State) (p : Port) (ixs : List PointIx) : Option (PointIx × Status) :=
  ixs.findSome? fun i =>
    match s.slot i with
    | none => some (i, .notDefined)
    | some pt => if pt.defn.rights.hasPort p then none else some (i, .noRight)

/-- The first listed point that another party holds, with that party (R38). -/
def State.firstOccupied (s : State) (p : Port) (ixs : List PointIx) : Option (PointIx × Party) :=
  ixs.findSome? fun i =>
    match (s.slot i).bind fun pt => pt.holder.party with
    | some w => if w = .port p then none else some (i, w)
    | none => none

/-- The number of listed points that are free (R40). -/
def State.freeCount (s : State) (ixs : List PointIx) : Nat :=
  ixs.countP fun i => (s.slot i).any fun pt => pt.holder.party.isNone

/-- A granted CLAIM: every listed point has the port as holder on the new terms (R40, R41). -/
def State.grantClaim (s : State) (claim : PortClaim) (ixs : List PointIx) : State :=
  let n := s.freeCount ixs
  let s := ixs.foldl (fun s i => s.modifySlot i fun pt => { pt with holder := .port claim }) s
  s.setCount claim.port (s.counts.get claim.port + n)

/-- The waiter list of a slot. -/
def State.waitersAt (s : State) (i : PointIx) : List Wait := ((s.slot i).map Point.waiters).getD []

/-- A CLAIM with the wait flag that finds an occupied point (R39). -/
def State.placeWait (s : State) (w : Wait) (ixs : List PointIx) (holder : Party) : State × Status × Body :=
  match ixs with
  | [i] =>
    let waiters := s.waitersAt i
    if waiters.any fun x => x.port = w.port then (s, .state, .empty)
    else if Config.waitersMax ≤ waiters.length then (s, .busy, .empty)
    else if Config.claimLimit < s.counts.get w.port + 1 then (s, .limit, .empty)
    else
      let s1 := (s.modifySlot i fun pt => { pt with waiters := pt.waiters ++ [w] }).setCount w.port (s.counts.get w.port + 1)
      (s1, .waiting, .claim i (some holder) (waiters.length + 1))
  | _ => (s, .badArg, .empty)

/-- A CLAIM whose arguments pass R36, through R37 to R41. -/
def State.takeClaim (s : State) (p : Port) (args : ClaimArgs) (mode : ClaimMode) (ixs : List PointIx) :
    State × Status × Body :=
  match s.claimBarrier p ixs with
  | some (i, status) => (s, status, .claim i none 0)
  | none =>
    match s.firstOccupied p ixs with
    | some (i, w) =>
      if args.wait then
        s.placeWait { port := p, lease := args.lease.toNat, mode := mode, remaining := args.waitLimit.toNat } ixs w
      else (s, .held, .claim i (some w) 0)
    | none =>
      if Config.claimLimit < s.counts.get p + s.freeCount ixs then (s, .limit, .empty)
      else (s.grantClaim { port := p, lease := freshLease args.lease.toNat, mode := mode } ixs, .ok, .empty)

/-- CLAIM: R36 to R41. -/
def execClaim (p : Port) (args : ClaimArgs) (s : State) : Result :=
  onRequest p (.claim args) s fun s =>
    match allSome pointIx? args.points, claimMode? args.mode with
    | some ixs, some mode =>
      if !ixs.Nodup || (args.wait && args.waitLimit = 0) then s.answer p .badArg .empty
      else
        let (s1, status, body) := s.takeClaim p args mode ixs
        s1.answer p status body
    | _, _ => s.answer p .badArg .empty

/-! ### RELEASE and RENEW -/

/-- The two selectors of RELEASE and RENEW. -/
inductive Selection where
  | list (ixs : List PointIx)
  | all
  deriving DecidableEq, Repr

/-- What a RELEASE or RENEW names; none is BAD_ARG: a list with no index or one above 511, ALL with an index, an unknown
selector (R42, R43, R197). -/
def selection? (args : ListArgs) : Option Selection :=
  match args.selector.toNat, allSome pointIx? args.points with
  | 0, some ixs => if ixs.isEmpty then none else some (.list ixs)
  | 1, some ixs => if ixs.isEmpty then some .all else none
  | _, _ => none

/-- The slot is held by the port. -/
def State.holds (s : State) (p : Port) (i : PointIx) : Bool := (s.slot i).any fun pt => pt.heldBy (.port p)

/-- The entries of a list in list order: `effect` at each point the port holds, NOT_HOLDER at the others (R42, R43). -/
def State.takeList (effect : State → PointIx → State) (p : Port) (s : State) : List PointIx → State × List Status
  | [] => (s, [])
  | i :: rest =>
    if s.holds p i then
      let (s1, sts) := State.takeList effect p (effect s i) rest
      (s1, .ok :: sts)
    else
      let (s1, sts) := State.takeList effect p s rest
      (s1, .notHolder :: sts)

/-- The response body of a list: the number of entries with status OK, and the entry statuses (R198). -/
def listBody (sts : List Status) : Body := .list (sts.countP fun st => st = .ok) sts

/-- RELEASE ALL: every point the port holds, with handover, in ascending order (R42). -/
def State.releaseAll (s : State) (p : Port) : State :=
  let n := s.heldCount (.port p)
  let rs := s.releaseRaises (.port p)
  let s := s.releaseHeld (.port p)
  (s.setCount p (s.counts.get p - n)).raiseAll rs

/-- RELEASE: R42. -/
def execRelease (p : Port) (args : ListArgs) (s : State) : Result :=
  onRequest p (.release args) s fun s =>
    match selection? args with
    | none => s.answer p .badArg .empty
    | some (.list ixs) =>
      let (s1, sts) := State.takeList (fun s i => s.releasePoint p i) p s ixs
      s1.answer p .ok (listBody sts)
    | some .all => (s.releaseAll p).answer p .ok (.all (s.heldCount (.port p)))

/-- A point's lease is restarted when the port holds it (R43). -/
def Point.renewFor (pt : Point) (p : Port) : Point :=
  if pt.heldBy (.port p) then { pt with holder := pt.holder.restart } else pt

/-- RENEW: R43. -/
def execRenew (p : Port) (args : ListArgs) (s : State) : Result :=
  onRequest p (.renew args) s fun s =>
    match selection? args with
    | none => s.answer p .badArg .empty
    | some (.list ixs) =>
      let (s1, sts) := State.takeList (fun s i => s.modifySlot i fun pt => pt.renewFor p) p s ixs
      s1.answer p .ok (listBody sts)
    | some .all =>
      (s.mapPoints fun pt => pt.renewFor p).answer p .ok (.all (s.heldCount (.port p)))

/-! ### WITHDRAW -/

/-- A waiter list without the wait of a port (R44). -/
def withoutPort (p : Port) (waiters : List Wait) : List Wait := waiters.filter fun w => w.port ≠ p

/-- WITHDRAW: R44. -/
def execWithdraw (p : Port) (point : Half) (s : State) : Result :=
  onRequest p (.withdraw point) s fun s =>
    match pointIx? point with
    | none => s.answer p .badArg .empty
    | some i =>
      if (s.waitersAt i).any fun w => w.port = p then
        ((s.modifySlot i fun pt => { pt with waiters := withoutPort p pt.waiters }).countDown p).answer p .ok .empty
      else s.answer p .notWaiting .empty

end Sys2Proof.Machine
end

