-- ==== Sys2Proof/Machine/Orders.lean ====
section
/-! DEFINITION. Machine/Orders.lean: the requests the order engine owns: ORDER_DEFINE, ORDER_ARM, ORDER_DISARM, ORDER_FIRE,
ORDER_QUERY, ORDER_CLEAR; and the executor's copies, ORDER_COPY (chapter 6). -/

namespace Sys2Proof.Machine

/-! ### The record as it is read -/

/-- The run flag of an order (Table 6.1-2, R119). -/
def State.runFlag (s : State) (n : OrderIx) : RunFlag :=
  match s.executor with
  | some r => if r.order = n then (if r.stopping then .stopping else .running) else .none
  | none => .none

/-- The run position of an order (Table 6.1-2, R119). -/
def State.runPosition (s : State) (n : OrderIx) : Nat :=
  match s.executor with
  | some r => if r.order = n then r.position else 0
  | none => 0

/-- The order is ARMED. -/
def State.armed (s : State) (n : OrderIx) : Bool := (s.order n).any fun o => o.phase = .armed

/-- The destination points of an order, in ascending order (R112). -/
def OrderDef.dests (d : OrderDef) : List PointIx := PointIx.run d.dest d.runLength

/-! ### ORDER_DEFINE -/

/-- The source step of a definition; only STEP_WRAP examines the wrap count (R113, check 4). -/
def sourceStep? (x : OrderArgs) : Option SourceStep :=
  let w := x.wrap.toNat
  match x.step.toNat with
  | 0 => some .fixed
  | 1 => some .step
  | 2 => if 1 ≤ w ∧ w ≤ 32 ∧ x.source.toNat + w * x.runLength.toNat ≤ 512 then some (.stepWrap w) else none
  | _ => none

/-- The transform of a definition, with only the fields it has (R113, R114). -/
def transform? (x : OrderArgs) : Option Transform :=
  match x.transform.toNat with
  | 0 => some .copy
  | 1 => some (.scale x.gain x.offset)
  | 2 => some .invert
  | 3 => some (.compare x.threshold)
  | _ => none

/-- The run length is 1 to 16 and both runs lie within the table (R113, check 2). -/
def runsFit (x : OrderArgs) : Bool :=
  let n := x.runLength.toNat
  1 ≤ n && n ≤ 16 && x.source.toNat + n ≤ 512 && x.dest.toNat + n ≤ 512

/-- The definition that an ORDER_DEFINE gives, when its arguments pass checks 2 to 5 of R113. -/
def orderDef? (owner : Port) (x : OrderArgs) : Option OrderDef :=
  match runsFit x, trigger? x.trigger, pointIx? x.source, pointIx? x.dest, sourceStep? x, transform? x, chain? x.chain with
  | true, some trigger, some source, some dest, some move, some transform, some chain =>
    some { owner, trigger, source, runLength := x.runLength.toNat, dest, step := move, transform, runs := x.runs.toNat, chain }
  | _, _, _, _, _, _, _ => none

/-- An order as its definition leaves it (R114). -/
def OrderDef.fresh (d : OrderDef) : Order :=
  { defn := d, phase := .disarmed, remaining := d.runs, pending := 0, missed := 0, runsDone := 0, faults := 0,
    base := d.source }

/-- ORDER_DEFINE: R113, R114. -/
def execOrderDefine (p : Port) (order : Byte) (args : OrderArgs) (s : State) : Result :=
  onRequest p (.orderDefine order args) s fun s =>
    match orderIx? order, orderDef? p args with
    | some n, some d =>
      if s.armed n then s.answer p .state .empty
      else if s.runFlag n = .stopping then s.answer p .busy .empty
      else (s.setOrder n (some d.fresh)).answer p .ok .empty
    | _, _ => s.answer p .badArg .empty

/-! ### ORDER_ARM and ORDER_DISARM -/

/-- An order as it becomes ARMED (R115). -/
def Order.arm (o : Order) : Order :=
  { o with phase := .armed, remaining := o.defn.runs, pending := 0, missed := 0, base := o.defn.source }

/-- ORDER_ARM: R115. -/
def execOrderArm (p : Port) (order : Byte) (s : State) : Result :=
  onRequest p (.orderArm order) s fun s =>
    match orderIx? order with
    | none => s.answer p .badArg .empty
    | some n =>
      match s.order n with
      | none => s.answer p .state .empty
      | some o =>
        if o.phase = .armed then s.answer p .state .empty
        else if s.runFlag n = .stopping then s.answer p .busy .empty
        else
          match s.firstInternalRefusal o.defn.dests with
          | some (_, i, status, w) => s.answer p status (.orderArm i w)
          | none => ((s.grantInternal (.order n) o.defn.dests).setOrder n (some o.arm)).answer p .ok .empty

/-- An order as it becomes DISARMED, its held triggers discarded (R116). -/
def Order.disarm (o : Order) : Order := { o with phase := .disarmed, pending := 0 }

/-- The run in flight is stopped when it is this order's (R135). -/
def State.stopRun (s : State) (n : OrderIx) : State :=
  { s with executor := s.executor.map fun r => if r.order = n then r.stop else r }

/-- An ARMED order is disarmed: its destinations are released with handover and its run is stopped (R116). -/
def State.disarmOrder (s : State) (n : OrderIx) : State :=
  let rs := s.releaseRaises (.order n)
  let s := (s.modifyOrder n Order.disarm).stopRun n
  (s.releaseHeld (.order n)).raiseAll rs

/-- ORDER_DISARM: R116. -/
def execOrderDisarm (p : Port) (order : Byte) (s : State) : Result :=
  onRequest p (.orderDisarm order) s fun s =>
    match orderIx? order with
    | none => s.answer p .badArg .empty
    | some n =>
      match s.order n with
      | none => s.answer p .state .empty
      | some o =>
        match o.phase with
        | .armed => (s.disarmOrder n).answer p .ok .empty
        | .disarmed => s.answer p .ok .empty
        | .retired => (s.setOrder n (some { o with phase := .disarmed })).answer p .ok .empty

/-! ### ORDER_FIRE, ORDER_QUERY, ORDER_CLEAR -/

/-- One trigger to one order, and the executor's choice (R120, R121). -/
def State.fire (s : State) (n : OrderIx) : State := (s.modifyOrder n Order.accept).startRun

/-- The ORDER_FIRE body: pending, missed and run flag as they stand (R121). -/
def State.fireBody (s : State) (n : OrderIx) : Body :=
  match s.order n with
  | some o => .orderFire o.pending o.missed (s.runFlag n)
  | none => .empty

/-- ORDER_FIRE: R121. -/
def execOrderFire (p : Port) (order : Byte) (s : State) : Result :=
  onRequest p (.orderFire order) s fun s =>
    match orderIx? order with
    | none => s.answer p .badArg .empty
    | some n =>
      if s.armed n then (s.fire n).answer p .ok ((s.fire n).fireBody n)
      else s.answer p .state .empty

/-- ORDER_QUERY: R118. -/
def execOrderQuery (p : Port) (order : Byte) (s : State) : Result :=
  onRequest p (.orderQuery order) s fun s =>
    match orderIx? order with
    | none => s.answer p .badArg .empty
    | some n => s.answer p .ok (.order n (s.order n) (s.runPosition n) (s.runFlag n))

/-- ORDER_CLEAR: R117. -/
def execOrderClear (p : Port) (order : Byte) (s : State) : Result :=
  onRequest p (.orderClear order) s fun s =>
    match orderIx? order with
    | none => s.answer p .badArg .empty
    | some n =>
      if s.armed n then s.answer p .state .empty
      else if s.runFlag n = .stopping then s.answer p .busy .empty
      else (s.setOrder n none).answer p .ok .empty

/-! ### ORDER_COPY -/

/-- What becomes of a copy at the point table (R125). -/
inductive CopyOutcome where
  | refused
  | fault
  | written (dest : PointIx) (point : Point) (value : Word) (quality : Quality) (clamped : Bool)
  deriving DecidableEq, Repr

/-- The quality of a copy by the quality of its source (R128). -/
def copyQuality (source : Quality) : Quality := if source = .good then .good else .suspect

/-- Copy k + 1 of a run, taken through the steps of R125: holder, source, transform, limits. -/
def State.copyOutcome (s : State) (n : OrderIx) (o : Order) (k : Nat) : CopyOutcome :=
  let dest := PointIx.plus o.defn.dest k
  match s.slot dest with
  | none => .refused
  | some pt =>
    if !pt.heldBy (.order n) then .refused
    else
      match s.slot (PointIx.plus o.base k) with
      | none => .fault
      | some src =>
        if src.quality = .unset then .fault
        else
          let x := o.defn.transform.result src.defn.kind (src.defn.kind.num src.value)
          if pt.defn.rejects x then .fault
          else .written dest pt (pt.defn.fit x) (copyQuality src.quality) (!pt.defn.inRange x)

/-- The copy's effect at the point table and its neighbours (R128). -/
def State.applyCopy (s : State) : CopyOutcome → State
  | .refused => s
  | .fault => s
  | .written dest pt v q _ => s.store dest pt v q

/-- The causes that the copy's write raises (R128). -/
def State.copyRaises (s : State) : CopyOutcome → List Raise
  | .refused => []
  | .fault => []
  | .written dest pt v q clamped => s.writeRaises dest pt v q clamped

/-- The source base after a run that is not stopped (R132). -/
def Order.nextBase (o : Order) : PointIx :=
  let n := o.defn.runLength
  match o.defn.step with
  | .fixed => o.defn.source
  | .step => if 511 < o.base.val + 2 * n - 1 then o.defn.source else PointIx.plus o.base n
  | .stepWrap w => if o.base.val + n = o.defn.source.val + w * n then o.defn.source else PointIx.plus o.base n

/-- Steps 1 to 3 of a run end, but for retirement (R131). -/
def Order.endRun (o : Order) : Order :=
  { o with
    runsDone := o.runsDone + 1
    base := o.nextBase
    remaining := if o.defn.runs = 0 then o.remaining else o.remaining - 1 }

/-- The order retires at this run end (R131, R133). -/
def Order.retires (o : Order) : Bool := o.defn.runs ≠ 0 && o.endRun.remaining = 0

/-- An order as it becomes RETIRED, its held triggers discarded (R133). -/
def Order.retire (o : Order) : Order := { o with phase := .retired, pending := 0 }

/-- The executor becomes free and starts the lowest-numbered ready order (R123, R131). -/
def State.freeExecutor (s : State) : State := State.startRun { s with executor := none }

/-- A chain pulse, when the order has a chain line (R134). -/
def State.pulse (s : State) : Option (Fin 8) → State
  | none => s
  | some k => s.deliver (.chain k)

/-- The end of a run of order n, whose record is o, in the order of R131. -/
def State.endRun (s : State) (n : OrderIx) (o : Order) : State :=
  let s := if o.retires then (s.setOrder n (some o.endRun.retire)).releaseHeld (.order n) else s.setOrder n (some o.endRun)
  (s.pulse o.defn.chain).freeExecutor

/-- The order with the report of a copy taken: a fault is counted (R129). -/
def Order.report (o : Order) (outcome : CopyOutcome) : Order :=
  if outcome = .fault then { o with faults := countUp o.faults } else o

/-- The order engine's causes of a copy event, raised with the order's state at its end (R129, R133, R139). -/
def orderRaises (owner : Port) (n : OrderIx) (outcome : CopyOutcome) (retired : Bool) : List Raise :=
  (if outcome = .fault then [⟨owner, .order n, .orderFault⟩] else []) ++
    (if retired then [⟨owner, .order n, .orderRetired⟩] else [])

/-- The event of the copy under way of run r, whose order's record is `o0` (R125 to R135). The causes of its points are raised
in ascending point order: the handovers of a retirement concern the run's destinations, of which the one just written is the
last (R81). -/
def State.takeCopy (s : State) (r : Run) (o0 : Order) : State :=
  let n := r.order
  let outcome := s.copyOutcome n o0 r.position
  let writes := s.copyRaises outcome
  let s := (s.applyCopy outcome).modifyOrder n fun o => o.report outcome
  match s.order n with
  | none => s.freeExecutor
  | some o =>
    if r.stopping then s.freeExecutor.raiseAll (writes ++ orderRaises o.defn.owner n outcome false)
    else if r.position + 1 < o.defn.runLength then
      State.raiseAll { s with executor := some { r with position := r.position + 1 } }
        (writes ++ orderRaises o.defn.owner n outcome false)
    else
      let handovers := if o.retires then s.releaseRaises (.order n) else []
      (s.endRun n o).raiseAll (handovers ++ writes ++ orderRaises o.defn.owner n outcome o.retires)

/-- ORDER_COPY: the copy under way is taken at the point table (R125 to R139). -/
def execOrderCopy (s : State) : Result :=
  event s.executor.isSome s fun s =>
    match s.executor with
    | none => s
    | some r =>
      match s.order r.order with
      | none => s.freeExecutor
      | some o => s.takeCopy r o

end Sys2Proof.Machine
end

