-- ==== Sys2Proof/Machine/Outputs.lean ====
section
/-! DEFINITION. Machine/Outputs.lean: the request the output line driver owns: OUTPUT_BIND (chapter 5). -/

namespace Sys2Proof.Machine

/-- A point selector: FFFFh is none, an index of 511 or less is that point, any other value is refused (R103, R197). -/
def bindPoint? (h : Half) : Option (Option PointIx) :=
  if h = 0xFFFF then some none else (pointIx? h).map some

/-- A line with a new binding and the level that follows from it (R103, R104). -/
def State.bound (s : State) (o : Output) (point : Option PointIx) (safe : Level) (invert : Bool) : Output :=
  let o := { o with point := point, safe := safe, invert := invert }
  { o with level := s.lineLevel o }

/-- OUTPUT_BIND: R103. -/
def execOutputBind (p : Port) (args : BindArgs) (s : State) : Result :=
  onRequest p (.outputBind args) s fun s =>
    match lineIx? args.line, bindPoint? args.point, level? args.safe with
    | some n, some point, some safe =>
      let before := s.outputs[n.val]
      let after := s.bound before point safe args.invert
      (s.setOutput n after).answer p .ok (.output before.point before.safe before.invert after.level)
    | _, _, _ => s.answer p .badArg .empty

end Sys2Proof.Machine
end

