-- ==== Sys2Proof/Machine/PointTable.lean ====
section
/-! DEFINITION. Machine/PointTable.lean: the requests the point table owns: READ, WRITE, DEFINE, UNDEFINE, TABLE_RESET
(chapter 1). -/

namespace Sys2Proof.Machine

/-! ### READ -/

/-- The result of one index (R15). -/
def State.readResult (s : State) (i : PointIx) : ReadResult :=
  match s.slot i with
  | some pt => ⟨.ok, pt.value, pt.seq, pt.quality, pt.holder.party⟩
  | none => ⟨.notDefined, 0, 0, .unset, none⟩

/-- READ: R14 to R16. -/
def execRead (p : Port) (points : List Half) (s : State) : Result :=
  onRequest p (.read points) s fun s =>
    match allSome pointIx? points with
    | none => s.answer p .badArg .empty
    | some ixs => s.answer p .ok (.read (ixs.map s.readResult))

/-! ### WRITE -/

/-- A WRITE entry whose index is in range. -/
structure WriteEntry where
  point : PointIx
  value : Word
  suspect : Bool
  deriving DecidableEq, Repr

/-- The entry with its index, none when that is above 511 (R17). -/
def writeEntry? (e : WriteArgs) : Option WriteEntry := (pointIx? e.point).map fun i => ⟨i, e.value, e.suspect⟩

/-- An accepted port write: it takes effect (R20, R21) and ends a WRITE_ONCE claim, with handover (R34). -/
def State.portWrite (s : State) (p : Port) (i : PointIx) (pt : Point) (v : Word) (q : Quality) (clamped : Bool) : State :=
  let s := s.storeAndRaise i pt v q clamped
  if pt.holder.isOnce then s.releasePoint p i else s

/-- One WRITE entry, checked and taken on its own (R18), with its result (R22). -/
def State.takeWrite (s : State) (p : Port) (e : WriteEntry) : State × WriteResult :=
  match s.slot e.point with
  | none => (s, ⟨.notDefined, 0, 0⟩)
  | some pt =>
    let x := pt.defn.kind.num e.value
    if !pt.heldBy (.port p) then (s, ⟨.notHolder, pt.value, pt.seq⟩)
    else if pt.defn.rejects x then (s, ⟨.outOfRange, pt.value, pt.seq⟩)
    else
      let clamped := !pt.defn.inRange x
      let v := pt.defn.fit x
      (s.portWrite p e.point pt v (writtenQuality e.suspect) clamped,
        ⟨if clamped then .okClamped else .ok, v, pt.seq + 1⟩)

/-- The entries of a WRITE in list order, each seeing the effects of those before it (R17, R23). -/
def State.takeWrites (s : State) (p : Port) : List WriteEntry → State × List WriteResult
  | [] => (s, [])
  | e :: rest =>
    let (s1, r) := s.takeWrite p e
    let (s2, rs) := s1.takeWrites p rest
    (s2, r :: rs)

/-- WRITE: R17 to R23. -/
def execWrite (p : Port) (entries : List WriteArgs) (s : State) : Result :=
  onRequest p (.write entries) s fun s =>
    match allSome writeEntry? entries with
    | none => s.answer p .badArg .empty
    | some es =>
      let (s1, rs) := s.takeWrites p es
      s1.answer p .ok (.write rs)

/-! ### DEFINE and UNDEFINE -/

/-- The definition that a DEFINE gives, when its arguments pass checks 2 to 4 of R9. -/
def pointDef? (x : DefineArgs) : Option PointDef :=
  match kind? x.kind, limitAction? x.limitAction with
  | some kind, some action =>
    let low := if kind = .bool then 0 else x.low
    let high := if kind = .bool then 1 else x.high
    let d : PointDef := { kind, default := x.default, low, high, limitAction := action, maxAge := x.maxAge.toNat,
                          rights := rightsOf x.rights }
    if !d.rights.isEmpty && d.lowNum ≤ d.highNum && d.inRange (kind.num x.default) then some d else none
  | _, _ => none

/-- A point as its definition leaves it (R10). -/
def PointDef.fresh (d : PointDef) : Point :=
  { defn := d, value := d.default, quality := .unset, seq := 0, age := 0, holder := .none, waiters := [] }

/-- The slot gets what `x` says, its subscriptions end with UNDEFINED (R80), and its lines are re-evaluated (R105): the one
path of definition (R10), redefinition (R11) and removal (R12). -/
def State.replaceSlot (s : State) (i : PointIx) (x : Option Point) : State :=
  let told := s.subscribers i
  let s := ((s.dropSubs i).setSlot i x).driveLines fun j => j = i
  s.raiseAll (told.map fun q => ⟨q, .point i, .undefined⟩)

/-- The slot holds a point that has a holder. -/
def State.slotHeld (s : State) (i : PointIx) : Bool := (s.slot i).any fun pt => pt.holder.party.isSome

/-- DEFINE: R9 to R11. -/
def execDefine (p : Port) (args : DefineArgs) (s : State) : Result :=
  onRequest p (.define args) s fun s =>
    match pointIx? args.point, pointDef? args with
    | some i, some d =>
      if s.slotHeld i then s.answer p .busy .empty
      else (s.replaceSlot i (some d.fresh)).answer p .ok .empty
    | _, _ => s.answer p .badArg .empty

/-- UNDEFINE: R12. -/
def execUndefine (p : Port) (point : Half) (s : State) : Result :=
  onRequest p (.undefine point) s fun s =>
    match pointIx? point with
    | none => s.answer p .badArg .empty
    | some i =>
      if (s.slot i).isNone then s.answer p .notDefined .empty
      else if s.slotHeld i then s.answer p .busy .empty
      else (s.replaceSlot i none).answer p .ok .empty

/-! ### TABLE_RESET -/

/-- A point after a table reset: live state as after definition, claim record cleared (R26, R55). -/
def Point.afterReset (pt : Point) : Point := pt.defn.fresh

/-- A subscription after a table reset: its reference is the point's default (R93). -/
def Sub.afterReset (sub : Sub) (x : Option Point) : Sub :=
  match x with
  | some pt => { sub with reference := pt.defn.default }
  | none => sub

/-- One port's part of the notice unit after a table reset (R93). -/
def NoticeUnit.afterReset (u : NoticeUnit) (points : Vector (Option Point) 512) : NoticeUnit :=
  { subs := zipTable (fun x sub => sub.map fun sub => Sub.afterReset sub x) points u.subs, queue := [], owed := [] }

/-- An order after a table reset (R136). -/
def Order.afterReset (o : Order) : Order := { o with phase := .disarmed, pending := 0 }

/-- The scanner after a table reset (R155). -/
def Scanner.afterReset (sc : Scanner) : Scanner := { sc with phase := .defined, current := 0, pendingPass := false }

/-- A timer that is stopped; a tick due at it does not reach it (R159, R164, log 7). -/
def Timer.stop (t : Timer) : Timer := { t with running := false, due := 0 }

/-- Every ACCEPTED entry is answered TABLE_RESET in place (R190). -/
def Entry.afterReset : Entry → Entry
  | .accepted seq _ => .answered seq .tableReset .empty
  | .answered seq st b => .answered seq st b

/-- A port in the event of a table reset: flags, enables and staged scan list are kept (R190, R200). -/
def PortState.afterReset (ps : PortState) : PortState := { ps with window := ps.window.map Entry.afterReset }

/-- The event of a table reset, at every owner of live state (R26, R27, Table 1.5-1), and at the windows (R190). -/
def State.tableReset (s : State) : State :=
  let s : State := { s with
    points := mapTable (Option.map Point.afterReset) s.points
    epoch := s.epoch + 1
    counts := .all 0
    batches := .all none
    notices := s.notices.map fun _ (u : NoticeUnit) => u.afterReset s.points
    orders := mapTable (Option.map Order.afterReset) s.orders
    executor := s.executor.map Run.stop
    scanner := s.scanner.map Scanner.afterReset
    timers := mapTable Timer.stop s.timers
    ports := s.ports.map fun _ ps => ps.afterReset }
  s.driveLines fun i => (s.slot i).isSome

/-- TABLE_RESET: its own entry is answered OK, every other ACCEPTED entry TABLE_RESET (R26 to R28, R190). -/
def execTableReset (p : Port) (s : State) : Result :=
  onRequest p .tableReset s fun s => (s.answer p .ok .empty).tableReset

end Sys2Proof.Machine
end

