-- ==== Sys2Proof/WellFormed.lean ====
section
/-! DEFINITION. WellFormed.lean: which commands a requester or the part can bring about at all. The only bounds that the type of
a command does not already give are the numbers of entries of Table 10.3-2, and the 1 to 16 entries of an assembled scan list. -/

namespace Sys2Proof

/-- The number of entries of a body lies within the bounds k of Table 10.3-2. -/
def within (least most n : Nat) : Bool := least ≤ n && n ≤ most

/-- The request has as many entries as its code allows (Table 10.3-2); an assembled SCAN_DEFINE has 1 to 16 (R142). -/
def Request.wf : Request → Bool
  | .read points => within 1 7 points.length
  | .write entries => within 1 8 entries.length
  | .define _ => true
  | .undefine _ => true
  | .tableReset => true
  | .claim args => within 1 16 args.points.length
  | .release args => within 0 16 args.points.length
  | .renew args => within 0 16 args.points.length
  | .withdraw _ => true
  | .batchOpen => true
  | .batchPut entries => within 1 8 entries.length
  | .batchCommit _ => true
  | .batchDiscard => true
  | .subscribe _ => true
  | .unsubscribe _ => true
  | .fetch _ => true
  | .orderDefine _ _ => true
  | .orderArm _ => true
  | .orderDisarm _ => true
  | .orderFire _ => true
  | .orderQuery _ => true
  | .orderClear _ => true
  | .scanDefinePart args => within 1 5 args.entries.length
  | .scanDefine args => within 1 Config.scanListSize args.entries.length
  | .scanArm => true
  | .scanStart => true
  | .scanStop => true
  | .scanDisarm => true
  | .scanQuery => true
  | .tickSet _ _ => true
  | .timerSet _ _ _ => true
  | .timerStop _ => true
  | .lineSet _ _ => true
  | .outputBind _ => true
  | .portReset => true
  | .forcePortReset _ => true
  | .configGrant _ => true
  | .configRevoke _ => true
  | .attnSet _ _ => true
  | .status => true

/-- A command is well formed when the request it executes is; the part's other steps have no bound left to check. -/
def Instr.wf (c : Instr) : Bool :=
  match c.request? with
  | some (_, r) => r.wf
  | none => true

end Sys2Proof
end

