-- ==== Sys2Proof/Machine/Frames.lean ====
section
/-! DEFINITION. Machine/Frames.lean: the bytes of frames (chapter 10): byte order, the CRC, request codes and bodies read and
written, response bodies, and the outbound frame. -/

namespace Sys2Proof.Machine

/-! ### Byte order (R193) -/

/-- Two bytes, most significant first. -/
def half (a b : Byte) : Half := a ++ b

/-- Four bytes, most significant first. -/
def word (a b c d : Byte) : Word := half a b ++ half c d

/-- A 2-byte field as bytes. -/
def bytes2 (h : Half) : List Byte := [h.extractLsb' 8 8, h.extractLsb' 0 8]

/-- A 4-byte field as bytes. -/
def bytes4 (w : Word) : List Byte := bytes2 (w.extractLsb' 16 16) ++ bytes2 (w.extractLsb' 0 16)

/-- A count as one byte. -/
def num1 (n : Nat) : List Byte := [BitVec.ofNat 8 n]

/-- A count as two bytes. -/
def num2 (n : Nat) : List Byte := bytes2 (BitVec.ofNat 16 n)

/-- A point index as a field. -/
def pointField (i : PointIx) : List Byte := num2 i.val

/-! ### The CRC (R195) -/

/-- One data bit into the register. -/
def crcBit (r : BitVec 16) (bit : Bool) : BitVec 16 :=
  if r.msb != bit then (r <<< 1) ^^^ 0x1021 else r <<< 1

/-- One byte into the register, most significant bit first. -/
def crcByte (r : BitVec 16) (b : Byte) : BitVec 16 :=
  [7, 6, 5, 4, 3, 2, 1, 0].foldl (fun r k => crcBit r (b.getLsbD k)) r

/-- The CRC of a list of bytes. -/
def crc (bytes : List Byte) : BitVec 16 := bytes.foldl crcByte 0xFFFF

/-! ### Request codes (Table 10.3-1) -/

/-- The requests that a CODE byte names. -/
inductive Code where
  | read | write | define | undefine | tableReset
  | claim | release | renew | withdraw
  | batchOpen | batchPut | batchCommit | batchDiscard
  | subscribe | unsubscribe | fetch
  | orderDefine | orderArm | orderDisarm | orderFire | orderQuery | orderClear
  | scanDefine | scanArm | scanStart | scanStop | scanDisarm | scanQuery
  | tickSet | timerSet | timerStop | lineSet
  | outputBind
  | portReset | forcePortReset | configGrant | configRevoke | attnSet | status
  deriving DecidableEq, Repr

/-- The request that a CODE byte names; none fails check 3 of R174. -/
def code? (b : Byte) : Option Code :=
  match b.toNat with
  | 0x01 => some .read
  | 0x02 => some .write
  | 0x03 => some .define
  | 0x04 => some .undefine
  | 0x05 => some .tableReset
  | 0x10 => some .claim
  | 0x11 => some .release
  | 0x12 => some .renew
  | 0x13 => some .withdraw
  | 0x18 => some .batchOpen
  | 0x19 => some .batchPut
  | 0x1A => some .batchCommit
  | 0x1B => some .batchDiscard
  | 0x20 => some .subscribe
  | 0x21 => some .unsubscribe
  | 0x22 => some .fetch
  | 0x28 => some .orderDefine
  | 0x29 => some .orderArm
  | 0x2A => some .orderDisarm
  | 0x2B => some .orderFire
  | 0x2C => some .orderQuery
  | 0x2D => some .orderClear
  | 0x30 => some .scanDefine
  | 0x31 => some .scanArm
  | 0x32 => some .scanStart
  | 0x33 => some .scanStop
  | 0x34 => some .scanDisarm
  | 0x35 => some .scanQuery
  | 0x38 => some .tickSet
  | 0x39 => some .timerSet
  | 0x3A => some .timerStop
  | 0x3B => some .lineSet
  | 0x40 => some .outputBind
  | 0x48 => some .portReset
  | 0x49 => some .forcePortReset
  | 0x4A => some .configGrant
  | 0x4B => some .configRevoke
  | 0x4C => some .attnSet
  | 0x4D => some .status
  | _ => none

/-- The CODE byte of a request. -/
def codeByte : Code → Byte
  | .read => 0x01
  | .write => 0x02
  | .define => 0x03
  | .undefine => 0x04
  | .tableReset => 0x05
  | .claim => 0x10
  | .release => 0x11
  | .renew => 0x12
  | .withdraw => 0x13
  | .batchOpen => 0x18
  | .batchPut => 0x19
  | .batchCommit => 0x1A
  | .batchDiscard => 0x1B
  | .subscribe => 0x20
  | .unsubscribe => 0x21
  | .fetch => 0x22
  | .orderDefine => 0x28
  | .orderArm => 0x29
  | .orderDisarm => 0x2A
  | .orderFire => 0x2B
  | .orderQuery => 0x2C
  | .orderClear => 0x2D
  | .scanDefine => 0x30
  | .scanArm => 0x31
  | .scanStart => 0x32
  | .scanStop => 0x33
  | .scanDisarm => 0x34
  | .scanQuery => 0x35
  | .tickSet => 0x38
  | .timerSet => 0x39
  | .timerStop => 0x3A
  | .lineSet => 0x3B
  | .outputBind => 0x40
  | .portReset => 0x48
  | .forcePortReset => 0x49
  | .configGrant => 0x4A
  | .configRevoke => 0x4B
  | .attnSet => 0x4C
  | .status => 0x4D

/-- The configuration requests (R175). -/
def Code.isConfig : Code → Bool
  | .define => true
  | .undefine => true
  | .tableReset => true
  | .orderDefine => true
  | .orderArm => true
  | .orderDisarm => true
  | .orderFire => true
  | .orderClear => true
  | .scanDefine => true
  | .scanArm => true
  | .scanStart => true
  | .scanStop => true
  | .scanDisarm => true
  | .tickSet => true
  | .timerSet => true
  | .timerStop => true
  | .lineSet => true
  | .outputBind => true
  | .configGrant => true
  | .configRevoke => true
  | .forcePortReset => true
  | .read => false
  | .write => false
  | .claim => false
  | .release => false
  | .renew => false
  | .withdraw => false
  | .batchOpen => false
  | .batchPut => false
  | .batchCommit => false
  | .batchDiscard => false
  | .subscribe => false
  | .unsubscribe => false
  | .fetch => false
  | .orderQuery => false
  | .scanQuery => false
  | .portReset => false
  | .attnSet => false
  | .status => false

/-! ### Request bodies (Table 10.3-2) -/

/-- A whole number of 2-byte point entries. -/
def parsePoints : List Byte → Option (List Half)
  | [] => some []
  | a :: b :: rest => (parsePoints rest).map (half a b :: ·)
  | _ => none

/-- A whole number of 7-byte WRITE entries. -/
def parseWrites : List Byte → Option (List WriteArgs)
  | [] => some []
  | p :: q :: a :: b :: c :: d :: f :: rest =>
    (parseWrites rest).map (⟨half p q, word a b c d, f ≠ 0⟩ :: ·)
  | _ => none

/-- A whole number of 6-byte BATCH_PUT entries. -/
def parsePuts : List Byte → Option (List PutArgs)
  | [] => some []
  | p :: q :: a :: b :: c :: d :: rest => (parsePuts rest).map (⟨half p q, word a b c d⟩ :: ·)
  | _ => none

/-- A whole number of 10-byte scan list entries (Table 10.5-3). -/
def parseScanEntries : List Byte → Option (List ScanEntryArgs)
  | [] => some []
  | i :: p :: q :: g :: h :: a :: b :: c :: d :: r :: rest =>
    (parseScanEntries rest).map (⟨i, half p q, half g h, word a b c d, r⟩ :: ·)
  | _ => none

/-- A request whose body suits its code: a whole number of entries within the bounds of Table 10.3-2. -/
def checked (r : Request) : Option Request := if r.wf then some r else none

/-- The request that a body of this code is; none fails check 4 of R174 (R197). -/
def parseBody : Code → List Byte → Option Request
  | .read, body => (parsePoints body).bind fun ps => checked (.read ps)
  | .write, body => (parseWrites body).bind fun es => checked (.write es)
  | .define, [p, q, k, d0, d1, d2, d3, l0, l1, l2, l3, h0, h1, h2, h3, act, m0, m1, rights] =>
    some (.define ⟨half p q, k, word d0 d1 d2 d3, word l0 l1 l2 l3, word h0 h1 h2 h3, act, half m0 m1, rights⟩)
  | .undefine, [p, q] => some (.undefine (half p q))
  | .tableReset, [] => some .tableReset
  | .claim, l0 :: l1 :: mode :: wait :: w0 :: w1 :: body =>
    (parsePoints body).bind fun ps => checked (.claim ⟨half l0 l1, mode, wait ≠ 0, half w0 w1, ps⟩)
  | .release, sel :: body => (parsePoints body).bind fun ps => checked (.release ⟨sel, ps⟩)
  | .renew, sel :: body => (parsePoints body).bind fun ps => checked (.renew ⟨sel, ps⟩)
  | .withdraw, [p, q] => some (.withdraw (half p q))
  | .batchOpen, [] => some .batchOpen
  | .batchPut, body => (parsePuts body).bind fun es => checked (.batchPut es)
  | .batchCommit, [f] => some (.batchCommit (f ≠ 0))
  | .batchDiscard, [] => some .batchDiscard
  | .subscribe, [p, q, c, d0, d1, d2, d3] => some (.subscribe ⟨half p q, c, word d0 d1 d2 d3⟩)
  | .unsubscribe, [p, q] => some (.unsubscribe (half p q))
  | .fetch, [n] => some (.fetch n)
  | .orderDefine,
    [n, t0, t1, t2, s0, s1, len, d0, d1, step, w, x, g0, g1, o0, o1, o2, o3, h0, h1, h2, h3, r0, r1, c] =>
    some (.orderDefine n ⟨⟨t0, half t1 t2⟩, half s0 s1, len, half d0 d1, step, w, x, half g0 g1, word o0 o1 o2 o3,
      word h0 h1 h2 h3, half r0 r1, c⟩)
  | .orderArm, [n] => some (.orderArm n)
  | .orderDisarm, [n] => some (.orderDisarm n)
  | .orderFire, [n] => some (.orderFire n)
  | .orderQuery, [n] => some (.orderQuery n)
  | .orderClear, [n] => some (.orderClear n)
  | .scanDefine, mode :: t0 :: t1 :: t2 :: first :: last :: body =>
    (parseScanEntries body).bind fun es => checked (.scanDefinePart ⟨mode, ⟨t0, half t1 t2⟩, first, last ≠ 0, es⟩)
  | .scanArm, [] => some .scanArm
  | .scanStart, [] => some .scanStart
  | .scanStop, [] => some .scanStop
  | .scanDisarm, [] => some .scanDisarm
  | .scanQuery, [] => some .scanQuery
  | .tickSet, [p, q, r] => some (.tickSet (half p q) r)
  | .timerSet, [n, p, q, m] => some (.timerSet n (half p q) m)
  | .timerStop, [n] => some (.timerStop n)
  | .lineSet, [n, e] => some (.lineSet n e)
  | .outputBind, [n, p, q, s, i] => some (.outputBind ⟨n, half p q, s, i ≠ 0⟩)
  | .portReset, [] => some .portReset
  | .forcePortReset, [p] => some (.forcePortReset p)
  | .configGrant, [p] => some (.configGrant p)
  | .configRevoke, [p] => some (.configRevoke p)
  | .attnSet, [r, n] => some (.attnSet r n)
  | .status, [] => some .status
  | _, _ => none

/-- The code of a request; a SCAN_DEFINE and its parts have one code. -/
def requestCode : Request → Code
  | .read _ => .read
  | .write _ => .write
  | .define _ => .define
  | .undefine _ => .undefine
  | .tableReset => .tableReset
  | .claim _ => .claim
  | .release _ => .release
  | .renew _ => .renew
  | .withdraw _ => .withdraw
  | .batchOpen => .batchOpen
  | .batchPut _ => .batchPut
  | .batchCommit _ => .batchCommit
  | .batchDiscard => .batchDiscard
  | .subscribe _ => .subscribe
  | .unsubscribe _ => .unsubscribe
  | .fetch _ => .fetch
  | .orderDefine _ _ => .orderDefine
  | .orderArm _ => .orderArm
  | .orderDisarm _ => .orderDisarm
  | .orderFire _ => .orderFire
  | .orderQuery _ => .orderQuery
  | .orderClear _ => .orderClear
  | .scanDefinePart _ => .scanDefine
  | .scanDefine _ => .scanDefine
  | .scanArm => .scanArm
  | .scanStart => .scanStart
  | .scanStop => .scanStop
  | .scanDisarm => .scanDisarm
  | .scanQuery => .scanQuery
  | .tickSet _ _ => .tickSet
  | .timerSet _ _ _ => .timerSet
  | .timerStop _ => .timerStop
  | .lineSet _ _ => .lineSet
  | .outputBind _ => .outputBind
  | .portReset => .portReset
  | .forcePortReset _ => .forcePortReset
  | .configGrant _ => .configGrant
  | .configRevoke _ => .configRevoke
  | .attnSet _ _ => .attnSet
  | .status => .status

/-- A trigger source field (R193). -/
def triggerBytes (t : TriggerArgs) : List Byte := t.cls :: bytes2 t.number

/-- A scan list entry (Table 10.5-3). -/
def scanEntryBytes (e : ScanEntryArgs) : List Byte :=
  e.input :: (bytes2 e.dest ++ bytes2 e.gain ++ bytes4 e.offset ++ [e.rail])

/-- The order definition (Table 10.5-2). -/
def orderArgsBytes (x : OrderArgs) : List Byte :=
  triggerBytes x.trigger ++ bytes2 x.source ++ [x.runLength] ++ bytes2 x.dest ++ [x.step, x.wrap, x.transform] ++
    bytes2 x.gain ++ bytes4 x.offset ++ bytes4 x.threshold ++ bytes2 x.runs ++ [x.chain]

/-- The body with which a requester sends a request (Table 10.3-2); the assembled SCAN_DEFINE is carried by no frame. -/
def requestBody : Request → List Byte
  | .read ps => ps.flatMap bytes2
  | .write es => es.flatMap fun e => bytes2 e.point ++ bytes4 e.value ++ [flagCode e.suspect]
  | .define x => bytes2 x.point ++ [x.kind] ++ bytes4 x.default ++ bytes4 x.low ++ bytes4 x.high ++ [x.limitAction] ++
      bytes2 x.maxAge ++ [x.rights]
  | .undefine p => bytes2 p
  | .tableReset => []
  | .claim x => bytes2 x.lease ++ [x.mode, flagCode x.wait] ++ bytes2 x.waitLimit ++ x.points.flatMap bytes2
  | .release x => x.selector :: x.points.flatMap bytes2
  | .renew x => x.selector :: x.points.flatMap bytes2
  | .withdraw p => bytes2 p
  | .batchOpen => []
  | .batchPut es => es.flatMap fun e => bytes2 e.point ++ bytes4 e.value
  | .batchCommit f => [flagCode f]
  | .batchDiscard => []
  | .subscribe x => bytes2 x.point ++ [x.condition] ++ bytes4 x.deadband
  | .unsubscribe p => bytes2 p
  | .fetch n => [n]
  | .orderDefine n x => n :: orderArgsBytes x
  | .orderArm n => [n]
  | .orderDisarm n => [n]
  | .orderFire n => [n]
  | .orderQuery n => [n]
  | .orderClear n => [n]
  | .scanDefinePart x => x.mode :: (triggerBytes x.trigger ++ [x.first, flagCode x.last] ++ x.entries.flatMap scanEntryBytes)
  | .scanDefine _ => []
  | .scanArm => []
  | .scanStart => []
  | .scanStop => []
  | .scanDisarm => []
  | .scanQuery => []
  | .tickSet p r => bytes2 p ++ [r]
  | .timerSet n p m => [n] ++ bytes2 p ++ [m]
  | .timerStop n => [n]
  | .lineSet n e => [n, e]
  | .outputBind x => [x.line] ++ bytes2 x.point ++ [x.safe, flagCode x.invert]
  | .portReset => []
  | .forcePortReset p => [p]
  | .configGrant p => [p]
  | .configRevoke p => [p]
  | .attnSet r n => [r, n]
  | .status => []

/-- The frame with which a requester sends a request (Table 10.2-1). -/
def requestFrame (seq : Byte) (r : Request) : List Byte :=
  let head := BitVec.ofNat 8 ((requestBody r).length + 5) :: seq :: codeByte (requestCode r) :: requestBody r
  head ++ bytes2 (crc head)

/-- The 64 bytes of an exchange: a frame and the padding behind it (R170). -/
def padded (frame : List Byte) : List Byte := frame ++ List.replicate (Config.exchangeBytes - frame.length) 0

/-! ### Response bodies (Table 10.4-2) -/

/-- The subject of a notice as 2 bytes (R193). -/
def subjectField : Subject → List Byte
  | .point i => num2 i.val
  | .order n => num2 (0x0200 + n.val)

/-- The three state fields of a notice record (Table 10.5-1). -/
def subjectStateBytes : SubjectState → List Byte
  | .point value quality seq => bytes4 value ++ [qualityCode quality] ++ bytes2 seq
  | .order remaining phase missed => bytes4 (BitVec.ofNat 32 remaining) ++ [orderStateCode phase] ++ num2 missed

/-- A notice record (Table 10.5-1). -/
def noticeBytes (n : Notice) : List Byte :=
  subjectField n.subject ++ bytes2 (n.causes.setWidth 16) ++ subjectStateBytes n.state ++ num1 n.merged

/-- An order definition as ORDER_QUERY returns it: the fields that are not stored are sent as 0 (R199). -/
def orderDefBytes (d : OrderDef) : List Byte :=
  let wrap := match d.step with
    | .stepWrap w => w
    | _ => 0
  let gain := match d.transform with
    | .scale g _ => g
    | _ => 0
  let offset := match d.transform with
    | .scale _ o => o
    | _ => 0
  let threshold := match d.transform with
    | .compare t => t
    | _ => 0
  triggerBytes (triggerArgs d.trigger) ++ pointField d.source ++ num1 d.runLength ++ pointField d.dest ++
    [sourceStepCode d.step] ++ num1 wrap ++ [transformCode d.transform] ++ bytes2 gain ++ bytes4 offset ++
    bytes4 threshold ++ num2 d.runs ++ [chainCode d.chain]

/-- The live fields of an order (Table 10.5-2). -/
def orderLiveBytes (o : Order) (position : Nat) (flag : RunFlag) : List Byte :=
  num2 o.remaining ++ num1 o.pending ++ num2 o.missed ++ bytes4 o.runsDone ++ num2 o.faults ++ pointField o.base ++
    num1 position ++ [runFlagCode flag]

/-- The record of an EMPTY order slot: owner none, and every field 0 or none (R118, R199, log 16). -/
def emptyOrderBytes : List Byte := [0x00] ++ List.replicate 23 0 ++ [chainCode none] ++ List.replicate 15 0

/-- One READ result: quality in bits 7 and 6, holder in bits 5 to 0 of the last byte (R198). -/
def readResultBytes (r : ReadResult) : List Byte :=
  statusCode r.status :: (bytes4 r.value ++ bytes2 r.seq ++ [(qualityCode r.quality <<< 6) ||| holderCode r.holder])

/-- One WRITE result. -/
def writeResultBytes (r : WriteResult) : List Byte := statusCode r.status :: (bytes4 r.value ++ bytes2 r.seq)

/-- The scanner record without its entries (R153); for an EMPTY scanner every other field is 0, none or clear. -/
def scannerBytes : Option Scanner → List Byte
  | none => List.replicate 15 0
  | some sc =>
    [scanStateCode (some sc.phase), portCode sc.owner, scanModeCode sc.mode] ++ triggerBytes (triggerArgs sc.trigger) ++
      num1 sc.entries.length ++ num1 sc.current ++ [flagCode sc.pendingPass] ++ bytes4 sc.passCount ++ num2 sc.missed

/-- A binding's point; FFFFh stands for none (R197). -/
def bindField : Option PointIx → List Byte
  | none => bytes2 0xFFFF
  | some i => pointField i

/-- The bytes of a response body (Table 10.4-2). -/
def bodyBytes : Body → List Byte
  | .empty => []
  | .read rs => rs.flatMap readResultBytes
  | .write rs => rs.flatMap writeResultBytes
  | .claim i w position => pointField i ++ [holderCode w] ++ num1 position
  | .list n sts => [0x00] ++ num1 n ++ sts.map statusCode
  | .all n => [0x01] ++ num1 n
  | .entries n => num1 n
  | .committed written marks released => num1 written ++ bytes2 marks ++ num1 released
  | .commitRefused position i cause => num1 position ++ pointField i ++ [statusCode cause]
  | .subscribed v seq q => bytes4 v ++ bytes2 seq ++ [qualityCode q]
  | .notices ns => num1 ns.length ++ ns.flatMap noticeBytes
  | .orderArm i w => pointField i ++ [holderCode w]
  | .orderFire pending missed flag => num1 pending ++ num2 missed ++ [runFlagCode flag]
  | .order n record position flag =>
    num1 n.val ++ [orderStateCode (record.map Order.phase)] ++
      match record with
      | none => emptyOrderBytes
      | some o => portCode o.defn.owner :: (orderDefBytes o.defn ++ orderLiveBytes o position flag)
  | .scanArm i k w => pointField i ++ num1 k ++ [holderCode w]
  | .scanStart phase pendingPass missed => [scanStateCode (some phase), flagCode pendingPass] ++ num2 missed
  | .scanner record => scannerBytes record
  | .tick period running => num2 period ++ [flagCode running]
  | .timer period mode running remaining => num2 period ++ [timerModeCode mode, flagCode running] ++ num2 remaining
  | .timerStop running remaining => [flagCode running] ++ num2 remaining
  | .line edge settled => [edgeCode edge, levelCode settled]
  | .output i safe invert level => bindField i ++ [levelCode safe, flagCode invert, levelCode level]
  | .config v => [portSetCode v]
  | .attn r n => [flagCode r, flagCode n]
  | .status own v r n level behind =>
    [portCode own, portSetCode v, flagCode r, flagCode n, levelCode level] ++ num1 behind

/-! ### The outbound frame (R178, R180, R194, R196) -/

/-- The three port status bytes (Table 10.2-2). -/
def portStatusBytes (s : State) (p : Port) : List Byte :=
  let ps := s.ports.get p
  let u := s.notices.get p
  num1 u.queue.length ++
    [BitVec.ofNat 8 (responsesReady ps.window) ||| (if u.owed.isEmpty then 0 else 0x08#8) |||
        (if ps.droppedFlag then 0x10#8 else 0) ||| (if ps.resetFlag then 0x20#8 else 0) |||
        (if s.config.get p then 0x40#8 else 0),
      s.epoch]

/-- An outbound frame of this SEQ, status and body, with the port status as it stands (Table 10.2-1). -/
def outboundFrame (s : State) (p : Port) (seq : Byte) (status : Status) (body : Body) : List Byte :=
  let bytes := bodyBytes body
  let head := BitVec.ofNat 8 (bytes.length + 8) :: seq :: statusCode status :: (portStatusBytes s p ++ bytes)
  head ++ bytes2 (crc head)

/-- The frame built at select falling: the head response when it is ANSWERED, else an idle frame (R178); and whether it
carries a response. -/
def frameAtSelect (s : State) (p : Port) : List Byte × Bool :=
  match (s.ports.get p).window with
  | .answered seq status body :: _ => (outboundFrame s p seq status body, true)
  | _ => (outboundFrame s p 0 .idle .empty, false)

/-- The byte that the port drives at place k of the exchange: the frame, then 00h (R170, R171). -/
def Exchange.outByte (x : Exchange) (k : Nat) : Byte := x.frame.getD k 0

end Sys2Proof.Machine
end

