-- ==== Sys2Proof/Machine/Ports.lean ====
section
/-! DEFINITION. Machine/Ports.lean: exchanges (SELECT_FALLING, EXCHANGE_END) and the requests a port owns: PORT_RESET,
FORCE_PORT_RESET, CONFIG_GRANT, CONFIG_REVOKE, ATTN_SET, STATUS (chapter 9). -/

namespace Sys2Proof.Machine

/-! ### The exchange -/

/-- The SPI mode that the level of SCKn sets at select falling (R170). -/
def spiMode : Level → SpiMode
  | .low => .mode0
  | .high => .mode3

/-- The port begins an exchange: its outbound frame is fixed, and the flags the frame carries set are those that its completion
clears (R178, R181). -/
def State.beginExchange (s : State) (p : Port) (sck : Level) : State :=
  let ps := s.ports.get p
  let (frame, carries) := frameAtSelect s p
  let x : Exchange := { mode := spiMode sck, frame, carries, clearsDropped := ps.droppedFlag, clearsReset := ps.resetFlag }
  s.setPort p { ps with exchange := some x }

/-- SELECT_FALLING: R170, R178. -/
def execSelectFalling (port : Port) (sck : Level) (s : State) : Result :=
  event (s.ports.get port).exchange.isNone s fun s => s.beginExchange port sck

/-- The checks of an inbound frame with a nonzero LEN that has found a place (R174): the entry it becomes. -/
def State.examine (s : State) (p : Port) (bytes : List Byte) : Entry :=
  let len := (bytes.getD 0 0).toNat
  let seq := bytes.getD 1 0
  let frame := bytes.take len
  if len < 5 || Config.exchangeBytes < len then .answered seq .badLength .empty
  else if bytes2 (crc (frame.take (len - 2))) ≠ frame.drop (len - 2) then .answered seq .badCheck .empty
  else
    match code? (bytes.getD 2 0) with
    | none => .answered seq .badCode .empty
    | some code =>
      match parseBody code ((frame.take (len - 2)).drop 3) with
      | none => .answered seq .badLength .empty
      | some r =>
        if code.isConfig && !s.config.get p then .answered seq .noRight .empty
        else .accepted seq r

/-- Delivery at a complete exchange (R173, step 1; R179, R181). -/
def PortState.deliver (ps : PortState) (x : Exchange) : PortState :=
  { ps with
    exchange := none
    window := if x.carries then ps.window.tail else ps.window
    droppedFlag := ps.droppedFlag && !x.clearsDropped
    resetFlag := ps.resetFlag && !x.clearsReset }

/-- The inbound frame of a complete exchange at a port that has settled delivery (R173, steps 2 to 4). -/
def State.receive (s : State) (p : Port) (ps : PortState) (bytes : List Byte) : PortState :=
  if bytes.getD 0 0 = 0 then ps
  else if Config.windowSize ≤ ps.window.length then { ps with droppedFlag := true }
  else { ps with window := ps.window ++ [s.examine p bytes] }

/-- The end of an exchange with this many whole bytes and sampling edges beyond them: faulty (R171) unless exactly 64 bytes
were taken (R170), else complete (R173). -/
def State.endExchange (s : State) (p : Port) (x : Exchange) (bytes : List Byte) (spareBits : Fin 8) : State :=
  let ps := s.ports.get p
  if bytes.length ≠ Config.exchangeBytes || spareBits ≠ 0 then
    s.setPort p { ps with exchange := none, droppedFlag := true }
  else s.setPort p (s.receive p (ps.deliver x) bytes)

/-- EXCHANGE_END: R170 to R175, R179, R181. -/
def execExchangeEnd (port : Port) (bytes : List Byte) (spareBits : Fin 8) (s : State) : Result :=
  event (s.ports.get port).exchange.isSome s fun s =>
    match (s.ports.get port).exchange with
    | none => s
    | some x => s.endExchange port x bytes spareBits

/-! ### PORT_RESET and FORCE_PORT_RESET -/

/-- The point after a port reset: the port's wait is gone, and what it held is released (R56). -/
def Point.afterPortReset (pt : Point) (p : Port) : Point :=
  Point.releaseFrom { pt with waiters := pt.waiters.filter fun w => w.port ≠ p } (.port p)

/-- The CLAIM_GRANTED causes of a port reset, in ascending point order (R47, R56). -/
def State.portResetRaises (s : State) (p : Port) : List Raise :=
  (entriesOf s.points).flatMap fun (i, x) =>
    match x with
    | some pt =>
      if pt.heldBy (.port p) then Point.heirRaises { pt with waiters := pt.waiters.filter fun w => w.port ≠ p } i else []
    | none => []

/-- An exchange under way in a port reset: its response no longer stands, and RESET is set after its frame was built (R179,
R181). -/
def Exchange.afterPortReset (x : Exchange) : Exchange := { x with carries := false, clearsReset := false }

/-- The port itself in a port reset, with the window that stays (R188, R189, R200). -/
def PortState.afterPortReset (ps : PortState) (window : List Entry) : PortState :=
  { ps with window := window, exchange := ps.exchange.map Exchange.afterPortReset, resetFlag := true, staged := [] }

/-- The event of a port reset at every owner (R56, R69, R92, R188, R189); `window` is what stays of the port's window. -/
def State.portReset (s : State) (p : Port) (window : List Entry) : State :=
  let rs := s.portResetRaises p
  let s := s.mapPoints fun pt => pt.afterPortReset p
  let s := ((s.setCount p 0).setBatch p none).setNotices p .reset
  (s.setPort p ((s.ports.get p).afterPortReset window)).raiseAll rs

/-- The oldest ACCEPTED entry of a window, answered OK without a body: the one entry that a port's own reset keeps (R188). -/
def ownEntry : List Entry → List Entry
  | [] => []
  | .accepted seq _ :: _ => [.answered seq .ok .empty]
  | .answered _ _ _ :: rest => ownEntry rest

/-- A port resets itself (R188). -/
def State.resetOwnPort (s : State) (p : Port) : State := s.portReset p (ownEntry (s.ports.get p).window)

/-- PORT_RESET: R188. -/
def execPortReset (p : Port) (s : State) : Result :=
  onRequest p .portReset s fun s => s.resetOwnPort p

/-- FORCE_PORT_RESET: R189. -/
def execForcePortReset (p : Port) (target : Byte) (s : State) : Result :=
  onRequest p (.forcePortReset target) s fun s =>
    match port? target with
    | none => s.answer p .badArg .empty
    | some q => if q = p then s.resetOwnPort p else (s.portReset q []).answer p .ok .empty

/-! ### The configuration set -/

/-- CONFIG_GRANT: R186. -/
def execConfigGrant (p : Port) (target : Byte) (s : State) : Result :=
  onRequest p (.configGrant target) s fun s =>
    match port? target with
    | none => s.answer p .badArg .empty
    | some q =>
      let set := s.config.set q true
      State.answer { s with config := set } p .ok (.config set)

/-- The set has no member. -/
def PortSet.isEmpty (v : PortSet) : Bool := !(v.a || v.b || v.c || v.d)

/-- CONFIG_REVOKE: R187. -/
def execConfigRevoke (p : Port) (target : Byte) (s : State) : Result :=
  onRequest p (.configRevoke target) s fun s =>
    match port? target with
    | none => s.answer p .badArg .empty
    | some q =>
      let set := s.config.set q false
      if s.config.get q && PortSet.isEmpty set then s.answer p .state .empty
      else State.answer { s with config := set } p .ok (.config set)

/-! ### ATTN_SET and STATUS -/

/-- ATTN_SET: R183. -/
def execAttnSet (p : Port) (response : Byte) (notice : Byte) (s : State) : Result :=
  onRequest p (.attnSet response notice) s fun s =>
    match twoWay? response, twoWay? notice with
    | some r, some n =>
      let ps := s.ports.get p
      (s.setPort p { ps with responseAttn := r, noticeAttn := n }).answer p .ok (.attn ps.responseAttn ps.noticeAttn)
    | _, _ => s.answer p .badArg .empty

/-- The body of a STATUS response; the level of ATTNn is the one before the STATUS itself is answered (R184, log 10). -/
def State.statusBody (s : State) (p : Port) : Body :=
  let ps := s.ports.get p
  .status p s.config ps.responseAttn ps.noticeAttn ps.attn (acceptedCount ps.window - 1)

/-- STATUS: R184. -/
def execStatus (p : Port) (s : State) : Result :=
  onRequest p .status s fun s => s.answer p .ok (s.statusBody p)

end Sys2Proof.Machine
end

