-- ==== Sys2Proof/Machine/Resets.lean ====
section
/-! DEFINITION. Machine/Resets.lean: COLD_RESET and COLD_RESET_END (R30, R157, R165, R192). -/

namespace Sys2Proof.Machine

/-- COLD_RESET: every block returns to its cold reset state, and the part is held there (R30, log 4). -/
def execColdReset (s : State) : Result := .next { State.reset with pending := s.pending }

/-- The settled levels that the pins give at the end of cold reset; bit n is the level of INn (R165). -/
def linesFromPins (lines : Vector InLine 8) (pins : BitVec 8) : Vector InLine 8 :=
  zipTable (fun (n : Fin 8) (l : InLine) => { l with settled := if pins.getLsbD n.val then .high else .low })
    ⟨⟨List.finRange 8⟩, by simp⟩ lines

/-- The part leaves cold reset: the first tick interval begins, and each line takes its level without an edge (R157, R165). -/
def State.leaveReset (s : State) (pins : BitVec 8) : State :=
  let g := s.tickGen
  { s with held := false, tickGen := { g with interval := some g.period }, lines := linesFromPins s.lines pins }

/-- COLD_RESET_END: it is due while the part is held in reset. -/
def execColdResetEnd (pins : BitVec 8) (s : State) : Result :=
  if s.held then .next (s.leaveReset pins).settle else .next s

end Sys2Proof.Machine
end

