-- ==== Sys2Proof/Machine/Scanning.lean ====
section
/-! DEFINITION. Machine/Scanning.lean: the staging of SCAN_DEFINE parts at a port (R200), the requests the converter scanner
owns: SCAN_DEFINE, SCAN_ARM, SCAN_START, SCAN_STOP, SCAN_DISARM, SCAN_QUERY; and CONVERSION_COMPLETION (chapter 7). -/

namespace Sys2Proof.Machine

/-! ### SCAN_DEFINE in parts -/

/-- The oldest ACCEPTED entry is presented as another request (R200). -/
def presentAs (r : Request) : List Entry → List Entry
  | [] => []
  | .accepted seq _ :: rest => .accepted seq r :: rest
  | .answered seq st b :: rest => .answered seq st b :: presentAs r rest

/-- The staged list with the part's entries joined to it; none is BAD_ARG (R200, checks 1 and 2). -/
def stageEntries (staged : List ScanEntryArgs) (x : ScanPartArgs) : Option (List ScanEntryArgs) :=
  let before := if x.first = 0 then [] else staged
  if before.length = x.first.toNat ∧ before.length + x.entries.length ≤ Config.scanListSize
  then some (before ++ x.entries) else none

/-- SCAN_DEFINE_PART: R200. A part that is not the last is answered with the number of entries staged; a last part becomes the
assembled SCAN_DEFINE, which the scanner executes in an event of its own. -/
def execScanDefinePart (p : Port) (args : ScanPartArgs) (s : State) : Result :=
  onRequest p (.scanDefinePart args) s fun s =>
    let ps := s.ports.get p
    match stageEntries ps.staged args with
    | none => s.answer p .badArg .empty
    | some entries =>
      if args.last then
        s.setPort p { ps with window := presentAs (.scanDefine ⟨args.mode, args.trigger, entries⟩) ps.window, staged := [] }
      else (s.setPort p { ps with staged := entries }).answer p .ok (.entries entries.length)

/-- A scan list entry that passes check 3 of R142. -/
def scanEntry? (e : ScanEntryArgs) : Option ScanEntry :=
  match lineIx? e.input, pointIx? e.dest, twoWay? e.rail with
  | some input, some dest, some rail => some { input, dest, gain := e.gain, offset := e.offset, rail }
  | _, _, _ => none

/-- The scanner record that a SCAN_DEFINE gives, when its arguments pass checks 1 to 4 of R142 (R143). -/
def scannerOf? (owner : Port) (x : ScanDefineArgs) : Option Scanner :=
  match scanMode? x.mode, scanTrigger? x.trigger, allSome scanEntry? x.entries with
  | some mode, some trigger, some entries =>
    if (entries.map ScanEntry.dest).Nodup then
      some { owner, entries, mode, trigger, phase := .defined, current := 0, pendingPass := false, passCount := 0, missed := 0 }
    else none
  | _, _, _ => none

/-- The scanner is ARMED or CONVERTING. -/
def Scanner.holds (sc : Scanner) : Bool := sc.phase ≠ .defined

/-- SCAN_DEFINE: R142, R143. -/
def execScanDefine (p : Port) (args : ScanDefineArgs) (s : State) : Result :=
  onRequest p (.scanDefine args) s fun s =>
    match scannerOf? p args with
    | none => s.answer p .badArg .empty
    | some sc =>
      if s.scanner.any Scanner.holds then s.answer p .state .empty
      else State.answer { s with scanner := some sc } p .ok .empty

/-! ### SCAN_ARM, SCAN_START, SCAN_STOP, SCAN_DISARM, SCAN_QUERY -/

/-- The scanner as it becomes ARMED from DEFINED (R144). -/
def Scanner.arm (sc : Scanner) : Scanner := { sc with phase := .armed, current := 0, pendingPass := false, missed := 0 }

/-- SCAN_ARM: R144. -/
def execScanArm (p : Port) (s : State) : Result :=
  onRequest p .scanArm s fun s =>
    match s.scanner with
    | none => s.answer p .state .empty
    | some sc =>
      if sc.holds then s.answer p .state .empty
      else
        let dests := sc.entries.map ScanEntry.dest
        match s.firstInternalRefusal dests with
        | some (k, i, status, w) => s.answer p status (.scanArm i k w)
        | none => State.answer { s.grantInternal .scanner dests with scanner := some sc.arm } p .ok .empty

/-- SCAN_START: R146. -/
def execScanStart (p : Port) (s : State) : Result :=
  onRequest p .scanStart s fun s =>
    match s.scanner with
    | none => s.answer p .state .empty
    | some sc =>
      if !sc.holds then s.answer p .state .empty
      else
        let sc := sc.accept
        State.answer { s with scanner := some sc } p .ok (.scanStart sc.phase sc.pendingPass sc.missed)

/-- The scanner with the conversion in flight, the current entry and a held pass discarded, the missed count kept (R151, R152);
that SCAN_DISARM leaves in it a trigger counted just before, against the wording of R154, is log 19 (DESIGN CHOICE). -/
def Scanner.abandon (sc : Scanner) (phase : ScanPhase) : Scanner :=
  { sc with phase := phase, current := 0, pendingPass := false }

/-- SCAN_STOP: R151. -/
def execScanStop (p : Port) (s : State) : Result :=
  onRequest p .scanStop s fun s =>
    match s.scanner with
    | none => s.answer p .state .empty
    | some sc =>
      match sc.phase with
      | .defined => s.answer p .state .empty
      | .armed => s.answer p .ok .empty
      | .converting => State.answer { s with scanner := some (sc.abandon .armed) } p .ok .empty

/-- The scanner releases its destinations with handover as it becomes DEFINED (R152). -/
def State.disarmScanner (s : State) (sc : Scanner) : State :=
  let rs := s.releaseRaises .scanner
  State.raiseAll (State.releaseHeld { s with scanner := some (sc.abandon .defined) } .scanner) rs

/-- SCAN_DISARM: R152. -/
def execScanDisarm (p : Port) (s : State) : Result :=
  onRequest p .scanDisarm s fun s =>
    match s.scanner with
    | none => s.answer p .state .empty
    | some sc =>
      if sc.holds then (s.disarmScanner sc).answer p .ok .empty
      else s.answer p .ok .empty

/-- SCAN_QUERY: R153. -/
def execScanQuery (p : Port) (s : State) : Result :=
  onRequest p .scanQuery s fun s => s.answer p .ok (.scanner s.scanner)

/-! ### CONVERSION_COMPLETION -/

/-- The raw reading is at a rail of the converter (R149). -/
def atRail (raw : BitVec 12) : Bool := raw.toNat = 0 || raw.toNat = Config.railTop

/-- The result number of a raw reading (R148). -/
def ScanEntry.result (e : ScanEntry) (raw : BitVec 12) : Int := scaled e.gain e.offset raw.toNat

/-- The record that the result is written to: the destination, while SCANNER holds it (R20, R24). -/
def State.scanTarget (s : State) (e : ScanEntry) : Option Point :=
  match s.slot e.dest with
  | some pt => if pt.heldBy .scanner then some pt else none
  | none => none

/-- The write of a result, clamped whatever the limit action (R24, R149), with its causes. -/
def State.scanWrite (s : State) (e : ScanEntry) (raw : BitVec 12) : State × List Raise :=
  match s.scanTarget e with
  | none => (s, [])
  | some pt =>
    let x := e.result raw
    let clamped := !pt.defn.inRange x
    let v := pt.defn.fit x
    let q := writtenQuality (clamped || (e.rail && atRail raw))
    (s.store e.dest pt v q, s.writeRaises e.dest pt v q clamped)

/-- What follows a pass (R150, step 3). -/
def Scanner.afterPass (sc : Scanner) : Scanner :=
  match sc.mode with
  | .continuous => { sc with current := 0 }
  | .single =>
    if sc.pendingPass then { sc with current := 0, pendingPass := false } else { sc with phase := .armed, current := 0 }

/-- A pass is counted (R150, step 1). -/
def Scanner.countPass (sc : Scanner) : Scanner := { sc with passCount := sc.passCount + 1 }

/-- The scanner converts this entry next (R149). -/
def Scanner.convert (sc : Scanner) (entry : Nat) : Scanner := { sc with current := entry }

/-- The end of a pass, in the order of R150. -/
def State.endPass (s : State) : State :=
  let s := State.deliverToOrders { s with scanner := s.scanner.map Scanner.countPass } .scanEnd
  { s with scanner := s.scanner.map Scanner.afterPass }

/-- The scanner moves on after a completion of entry `current` of `length` (R149). -/
def State.nextConversion (s : State) (current length : Nat) : State :=
  if current + 1 < length then
    { s with scanner := s.scanner.map fun sc => sc.convert (current + 1) }
  else s.endPass

/-- A conversion is in flight (R147). -/
def State.converting (s : State) : Bool := s.scanner.any fun sc => sc.phase = .converting

/-- CONVERSION_COMPLETION: R148 to R150. -/
def execConversionCompletion (raw : BitVec 12) (s : State) : Result :=
  event s.converting s fun s =>
    match s.scanner with
    | none => s
    | some sc =>
      match sc.entries[sc.current]? with
      | none => s
      | some e =>
        let (s1, rs) := s.scanWrite e raw
        (s1.nextConversion sc.current sc.entries.length).raiseAll rs

end Sys2Proof.Machine
end

