-- ==== Sys2Proof/Machine/Subscriptions.lean ====
section
/-! DEFINITION. Machine/Subscriptions.lean: the requests the notice unit owns: SUBSCRIBE, UNSUBSCRIBE, FETCH (chapter 4). -/

namespace Sys2Proof.Machine

/-- The condition that a SUBSCRIBE gives, when it passes checks 2 and 3 of R72. -/
def condition? (args : SubscribeArgs) : Option Condition :=
  match args.condition.toNat with
  | 0 => some .write
  | 1 => some .change
  | 2 => if args.deadband = 0 then none else some (.deadband (some args.deadband))
  | _ => none

/-- The condition as it is stored: at a BOOL point a DEADBAND loses its deadband (R72). -/
def Condition.storedAt (c : Condition) (k : Kind) : Condition :=
  match c with
  | .deadband least => .deadband (if k = .bool then none else least)
  | c => c

/-- Replace the subscription of a port to a point. -/
def State.setSub (s : State) (p : Port) (i : PointIx) (x : Option Sub) : State :=
  let u := s.notices.get p
  s.setNotices p { u with subs := u.subs.set i.val x }

/-- SUBSCRIBE: R72. -/
def execSubscribe (p : Port) (args : SubscribeArgs) (s : State) : Result :=
  onRequest p (.subscribe args) s fun s =>
    match pointIx? args.point, condition? args with
    | some i, some c =>
      match s.slot i with
      | none => s.answer p .notDefined .empty
      | some pt =>
        ((s.setSub p i (some ⟨c.storedAt pt.defn.kind, pt.value⟩)).raise p (.point i) .subscribed).answer p .ok
          (.subscribed pt.value pt.seq pt.quality)
    | _, _ => s.answer p .badArg .empty

/-- UNSUBSCRIBE: R73. -/
def execUnsubscribe (p : Port) (point : Half) (s : State) : Result :=
  onRequest p (.unsubscribe point) s fun s =>
    match pointIx? point with
    | none => s.answer p .badArg .empty
    | some i =>
      if (s.sub p i).isNone then s.answer p .state .empty
      else (s.setSub p i none).answer p .ok .empty

/-- FETCH: the removal from the head of the queue and the owed drain (R87 to R89). -/
def execFetch (p : Port) (count : Byte) (s : State) : Result :=
  onRequest p (.fetch count) s fun s =>
    let k := count.toNat
    if k = 0 || 4 < k then s.answer p .badArg .empty
    else
      let u := s.notices.get p
      (s.setNotices p (s.drained { u with queue := u.queue.drop k })).answer p .ok (.notices (u.queue.take k))

end Sys2Proof.Machine
end

