-- ==== Sys2Proof/Machine/TimeBase.lean ====
section
/-! DEFINITION. Machine/TimeBase.lean: the tick and its deliveries (TICK, TICK_AGEING, POINT_STALE, CLAIM_ARBITER_TICK,
LEASE_LAPSE, WAIT_EXPIRY, TIMER_TICK, TIMER_EXPIRY), the edges of the trigger input lines (LINE_EDGE), and the requests the time
base owns: TICK_SET, TIMER_SET, TIMER_STOP, LINE_SET (chapter 8; R50, R51; R96, R97). -/

namespace Sys2Proof.Machine

/-! ### The tick -/

/-- The tick is due at a timer that is running (R159). -/
def Timer.tickDue (t : Timer) : Timer := if t.running then { t with due := t.due + 1 } else t

/-- A tick is produced and the next interval begins (R157); every consumer has it to take (R159, log 6). -/
def State.produceTick (s : State) : State :=
  let g := s.tickGen
  { s with
    tickGen := { g with interval := some g.period, dueTable := g.dueTable + 1, dueArbiter := g.dueArbiter + 1 }
    timers := mapTable Timer.tickDue s.timers }

/-- TICK: R157, R159. -/
def execTick (s : State) : Result := event s.tickGen.running s State.produceTick

/-! ### Ageing at the point table -/

/-- The point is aged at a tick (R96). -/
def Point.ages (pt : Point) : Bool := pt.defn.maxAge ≠ 0 && (pt.quality = .good || pt.quality = .suspect)

/-- The point becomes STALE at a tick (R97). -/
def Point.goesStale (pt : Point) : Bool := pt.ages && pt.age + 1 = pt.defn.maxAge

/-- The point after a tick (R96, R97). -/
def Point.aged (pt : Point) : Point :=
  if pt.ages then { pt with age := pt.age + 1, quality := if pt.goesStale then .stale else pt.quality } else pt

/-- The point of that slot becomes STALE at a tick. -/
def State.goesStale (s : State) (i : PointIx) : Bool := (s.slot i).any Point.goesStale

/-- QUALITY for every subscriber of every point that becomes STALE, in ascending point order (R77, R97). -/
def State.staleRaises (s : State) : List Raise :=
  (entriesOf s.points).flatMap fun (i, x) =>
    if x.any Point.goesStale then (s.subscribers i).map fun q => ⟨q, .point i, .quality⟩ else []

/-- The point table takes a tick: all of its ageing in one event (R96, R97). -/
def State.ageTable (s : State) : State :=
  let rs := s.staleRaises
  let stale := s.goesStale
  let g := s.tickGen
  let s := { s.mapPoints Point.aged with tickGen := { g with dueTable := g.dueTable - 1 } }
  (s.driveLines stale).raiseAll rs

/-- A tick is due at the point table and the tick runs (R100, R159, log 6). -/
def State.ageingDue (s : State) : Bool := s.tickGen.running && 0 < s.tickGen.dueTable

/-- TICK_AGEING: R96, R97. -/
def execTickAgeing (s : State) : Result := event s.ageingDue s State.ageTable

/-- POINT_STALE: the ageing event of the tick at which this point becomes STALE (R97, log 8). -/
def execPointStale (point : Fin 512) (s : State) : Result :=
  event (s.ageingDue && s.goesStale point) s State.ageTable

/-! ### The countdown at the claim arbiter -/

/-- The lease runs out at this tick (R50). -/
def Lease.lapses (l : Lease) : Bool := l.remaining ≤ 1

/-- The port whose claim lapses at this tick (R50). -/
def Point.lapsing (pt : Point) : Option Port :=
  match pt.holder with
  | .port c => if c.lease.any Lease.lapses then some c.port else none
  | _ => none

/-- A lease that a tick counts down (R50). -/
def Holder.countDown : Holder → Holder
  | .port c => .port { c with lease := c.lease.map fun l => { l with remaining := l.remaining - 1 } }
  | h => h

/-- The point after the lease part of a tick: a lapsed claim is handed over with its full lease (R50). -/
def Point.afterLeases (pt : Point) : Point :=
  if pt.lapsing.isSome then pt.release else { pt with holder := pt.holder.countDown }

/-- The wait expires at this tick, if it is still on its list (R51). -/
def Wait.expires (w : Wait) : Bool := w.remaining ≤ 1

/-- The ports whose waits on the point expire at this tick: those still waiting after the lease part (R51). -/
def Point.expiring (pt : Point) : List Port := (pt.afterLeases.waiters.filter Wait.expires).map Wait.port

/-- A wait that a tick counts down (R51). -/
def Wait.countDown (w : Wait) : Wait := { w with remaining := w.remaining - 1 }

/-- The point after a tick at the claim arbiter: leases first, then waits (R50, R51). -/
def Point.counted (pt : Point) : Point :=
  let pt := pt.afterLeases
  { pt with waiters := (pt.waiters.filter fun w => !w.expires).map Wait.countDown }

/-- The causes of a tick at one point (R50, R51). -/
def Point.tickRaises (pt : Point) (i : PointIx) : List Raise :=
  (match pt.lapsing with
    | some q => ⟨q, .point i, .claimLapsed⟩ :: pt.heirRaises i
    | none => []) ++ pt.expiring.map fun q => ⟨q, .point i, .waitExpired⟩

/-- The causes of a tick at the claim arbiter, in ascending point order (R81). -/
def State.arbiterRaises (s : State) : List Raise :=
  (entriesOf s.points).flatMap fun (i, x) =>
    match x with
    | some pt => pt.tickRaises i
    | none => []

/-- The claims and waits of a port that end at this tick (R35). -/
def State.endingCount (s : State) (p : Port) : Nat :=
  s.points.toList.countP (fun x => x.any fun pt => pt.lapsing = some p) +
    s.points.toList.countP (fun x => x.any fun pt => pt.expiring.contains p)

/-- The claim arbiter takes a tick (R50, R51). -/
def State.arbiterTick (s : State) : State :=
  let rs := s.arbiterRaises
  let ending := s.endingCount
  let g := s.tickGen
  let s := { s.mapPoints Point.counted with
    counts := s.counts.map fun p n => n - ending p
    tickGen := { g with dueArbiter := g.dueArbiter - 1 } }
  s.raiseAll rs

/-- A tick is due at the claim arbiter and the tick runs (R52, R159, log 6). -/
def State.arbiterDue (s : State) : Bool := s.tickGen.running && 0 < s.tickGen.dueArbiter

/-- CLAIM_ARBITER_TICK: R50, R51. -/
def execClaimArbiterTick (s : State) : Result := event s.arbiterDue s State.arbiterTick

/-- LEASE_LAPSE: the tick of the claim arbiter at which the claim on this point lapses (R50, log 8). -/
def execLeaseLapse (point : Fin 512) (s : State) : Result :=
  event (s.arbiterDue && (s.slot point).any fun pt => pt.lapsing.isSome) s State.arbiterTick

/-- WAIT_EXPIRY: the tick of the claim arbiter at which this port's wait on this point expires (R51, log 8). -/
def execWaitExpiry (point : Fin 512) (port : Port) (s : State) : Result :=
  event (s.arbiterDue && (s.slot point).any fun pt => pt.expiring.contains port) s State.arbiterTick

/-! ### The interval timers -/

/-- The timer expires at the tick it takes (R163). -/
def Timer.expires (t : Timer) : Bool := t.remaining ≤ 1

/-- The timer after a tick (R163); a one-shot timer that has expired receives no further tick. -/
def Timer.ticked (t : Timer) : Timer :=
  if t.expires then
    match t.mode with
    | .periodic => { t with remaining := t.period, due := t.due - 1 }
    | .oneShot => { t with running := false, remaining := 0, due := 0 }
  else { t with remaining := t.remaining - 1, due := t.due - 1 }

/-- A timer takes a tick; an expiry delivers TIMERn (R163). -/
def State.timerTick (s : State) (n : Fin 4) : State :=
  let t := s.timers[n.val]
  let s := s.setTimer n t.ticked
  if t.expires then s.deliver (.timer n) else s

/-- A tick is due at the timer, the timer runs and the tick runs (R159, log 6). -/
def State.timerDue (s : State) (n : Fin 4) : Bool :=
  let t := s.timers[n.val]
  s.tickGen.running && t.running && 0 < t.due

/-- TIMER_TICK: R163. -/
def execTimerTick (timer : Fin 4) (s : State) : Result := event (s.timerDue timer) s fun s => s.timerTick timer

/-- TIMER_EXPIRY: the tick at which this timer expires (R163, log 8). -/
def execTimerExpiry (timer : Fin 4) (s : State) : Result :=
  event (s.timerDue timer && s.timers[timer.val].expires) s fun s => s.timerTick timer

/-! ### The trigger input lines -/

/-- The edge setting matches an edge to this level (R165). -/
def EdgeSetting.hears : EdgeSetting → Level → Bool
  | .off, _ => false
  | .rise, l => l = .high
  | .fall, l => l = .low
  | .both, _ => true

/-- An edge: the settled level changes, and LINEn is delivered when the setting matches (R165). -/
def State.takeEdge (s : State) (n : Fin 8) (level : Level) : State :=
  let l := s.lines[n.val]
  let s := s.setLine n { l with settled := level }
  if l.edge.hears level then s.deliver (.line n) else s

/-- LINE_EDGE: the settled level of INn changes to this level (R165). -/
def execLineEdge (line : Fin 8) (level : Level) (s : State) : Result :=
  event (s.lines[line.val].settled ≠ level) s fun s => s.takeEdge line level

/-! ### TICK_SET, TIMER_SET, TIMER_STOP, LINE_SET -/

/-- The tick generator after a TICK_SET (R158). -/
def TickGen.set (g : TickGen) (period : Nat) (run : Bool) : TickGen :=
  match g.running, run with
  | true, true => { g with period := period }
  | true, false => { g with period := period, running := false, interval := none }
  | false, false => { g with period := period }
  | false, true => { g with period := period, running := true, interval := some period }

/-- The arguments of a TICK_SET that it accepts (R158). -/
def tickArgs? (period : Half) (runState : Byte) : Option (Nat × Bool) :=
  if period.toNat = 0 || Config.tickPeriodMax < period.toNat then none
  else (twoWay? runState).map fun run => (period.toNat, run)

/-- TICK_SET: R158. -/
def execTickSet (p : Port) (period : Half) (runState : Byte) (s : State) : Result :=
  onRequest p (.tickSet period runState) s fun s =>
    match tickArgs? period runState with
    | none => s.answer p .badArg .empty
    | some (n, run) =>
      let g := s.tickGen
      State.answer { s with tickGen := g.set n run } p .ok (.tick g.period g.running)

/-- A timer loaded by TIMER_SET (R161). A tick due at a running timer stays due (R164, log 7). -/
def Timer.load (t : Timer) (period : Nat) (mode : TimerMode) : Timer :=
  { period, mode, running := true, remaining := period, due := t.due }

/-- TIMER_SET: R161. -/
def execTimerSet (p : Port) (timer : Byte) (period : Half) (mode : Byte) (s : State) : Result :=
  onRequest p (.timerSet timer period mode) s fun s =>
    match timerIx? timer, timerMode? mode with
    | some n, some m =>
      let t := s.timers[n.val]
      if period = 0 then s.answer p .badArg .empty
      else (s.setTimer n (t.load period.toNat m)).answer p .ok (.timer t.period t.mode t.running t.remaining)
    | _, _ => s.answer p .badArg .empty

/-- A timer whose running flag is cleared; a tick due at it does not reach it (R162, R164, log 7). -/
def Timer.halt (t : Timer) : Timer := { t with running := false, due := 0 }

/-- TIMER_STOP: R162. -/
def execTimerStop (p : Port) (timer : Byte) (s : State) : Result :=
  onRequest p (.timerStop timer) s fun s =>
    match timerIx? timer with
    | none => s.answer p .badArg .empty
    | some n =>
      let t := s.timers[n.val]
      (s.setTimer n t.halt).answer p .ok (.timerStop t.running t.remaining)

/-- LINE_SET: R166. -/
def execLineSet (p : Port) (line : Byte) (edge : Byte) (s : State) : Result :=
  onRequest p (.lineSet line edge) s fun s =>
    match lineIx? line, edge? edge with
    | some n, some e =>
      let l := s.lines[n.val]
      (s.setLine n { l with edge := e }).answer p .ok (.line l.edge l.settled)
    | _, _ => s.answer p .badArg .empty

end Sys2Proof.Machine
end

