-- ==== Sys2Proof/Machine/Dispatch.lean ====
section
/-! DEFINITION. Machine/Dispatch.lean: one arm per command, each a direct call of its meaning, in the table's order. -/

namespace Sys2Proof.Machine

/-- The effect of a command on everything but the queue. -/
def exec (i : Instr) (s : State) : Host.Outcome State Fault Refusal :=
  match i with
  | .coldReset => Sys2Proof.Machine.execColdReset s
  | .selectFalling port sck => Sys2Proof.Machine.execSelectFalling port sck s
  | .exchangeEnd port bytes spareBits => Sys2Proof.Machine.execExchangeEnd port bytes spareBits s
  | .read port points => Sys2Proof.Machine.execRead port points s
  | .write port entries => Sys2Proof.Machine.execWrite port entries s
  | .define port args => Sys2Proof.Machine.execDefine port args s
  | .undefine port point => Sys2Proof.Machine.execUndefine port point s
  | .tableReset port => Sys2Proof.Machine.execTableReset port s
  | .claim port args => Sys2Proof.Machine.execClaim port args s
  | .release port args => Sys2Proof.Machine.execRelease port args s
  | .renew port args => Sys2Proof.Machine.execRenew port args s
  | .withdraw port point => Sys2Proof.Machine.execWithdraw port point s
  | .tick => Sys2Proof.Machine.execTick s
  | .tickAgeing => Sys2Proof.Machine.execTickAgeing s
  | .pointStale point => Sys2Proof.Machine.execPointStale point s
  | .claimArbiterTick => Sys2Proof.Machine.execClaimArbiterTick s
  | .leaseLapse point => Sys2Proof.Machine.execLeaseLapse point s
  | .waitExpiry point port => Sys2Proof.Machine.execWaitExpiry point port s
  | .timerTick timer => Sys2Proof.Machine.execTimerTick timer s
  | .timerExpiry timer => Sys2Proof.Machine.execTimerExpiry timer s
  | .lineEdge line level => Sys2Proof.Machine.execLineEdge line level s
  | .batchOpen port => Sys2Proof.Machine.execBatchOpen port s
  | .batchPut port entries => Sys2Proof.Machine.execBatchPut port entries s
  | .batchCommit port releaseAfter => Sys2Proof.Machine.execBatchCommit port releaseAfter s
  | .batchDiscard port => Sys2Proof.Machine.execBatchDiscard port s
  | .subscribe port args => Sys2Proof.Machine.execSubscribe port args s
  | .unsubscribe port point => Sys2Proof.Machine.execUnsubscribe port point s
  | .fetch port count => Sys2Proof.Machine.execFetch port count s
  | .orderDefine port order args => Sys2Proof.Machine.execOrderDefine port order args s
  | .orderArm port order => Sys2Proof.Machine.execOrderArm port order s
  | .orderDisarm port order => Sys2Proof.Machine.execOrderDisarm port order s
  | .orderFire port order => Sys2Proof.Machine.execOrderFire port order s
  | .orderQuery port order => Sys2Proof.Machine.execOrderQuery port order s
  | .orderClear port order => Sys2Proof.Machine.execOrderClear port order s
  | .orderCopy => Sys2Proof.Machine.execOrderCopy s
  | .scanDefinePart port args => Sys2Proof.Machine.execScanDefinePart port args s
  | .scanDefine port args => Sys2Proof.Machine.execScanDefine port args s
  | .scanArm port => Sys2Proof.Machine.execScanArm port s
  | .scanStart port => Sys2Proof.Machine.execScanStart port s
  | .scanStop port => Sys2Proof.Machine.execScanStop port s
  | .scanDisarm port => Sys2Proof.Machine.execScanDisarm port s
  | .scanQuery port => Sys2Proof.Machine.execScanQuery port s
  | .conversionCompletion raw => Sys2Proof.Machine.execConversionCompletion raw s
  | .tickSet port period runState => Sys2Proof.Machine.execTickSet port period runState s
  | .timerSet port timer period mode => Sys2Proof.Machine.execTimerSet port timer period mode s
  | .timerStop port timer => Sys2Proof.Machine.execTimerStop port timer s
  | .lineSet port line edge => Sys2Proof.Machine.execLineSet port line edge s
  | .outputBind port args => Sys2Proof.Machine.execOutputBind port args s
  | .portReset port => Sys2Proof.Machine.execPortReset port s
  | .forcePortReset port target => Sys2Proof.Machine.execForcePortReset port target s
  | .configGrant port target => Sys2Proof.Machine.execConfigGrant port target s
  | .configRevoke port target => Sys2Proof.Machine.execConfigRevoke port target s
  | .attnSet port response notice => Sys2Proof.Machine.execAttnSet port response notice s
  | .status port => Sys2Proof.Machine.execStatus port s
  | .coldResetEnd pins => Sys2Proof.Machine.execColdResetEnd pins s

end Sys2Proof.Machine
end

