-- ==== Sys2Proof/Safety.lean ====
section
/-! DEFINITION. Safety.lean: what every state of the part keeps true (the invariants), and the few predicates in which the
statements about commands are written. -/

namespace Sys2Proof.Machine

/-! ### The table: limits, ages, claims -/

/-- The definition of a point is one that DEFINE accepts (R3, R9). -/
def PointDef.sound (d : PointDef) : Prop :=
  d.lowNum ≤ d.highNum ∧ d.inRange (d.kind.num d.default) ∧ (d.kind = .bool → d.low = 0 ∧ d.high = 1) ∧
    d.rights.isEmpty = false ∧ d.maxAge ≤ 65535

/-- The value lies within the limits (R3), and an UNSET point holds its default with sequence 0 (R4, R5). -/
def Point.valueSound (pt : Point) : Prop :=
  pt.defn.sound ∧ pt.defn.inRange (pt.defn.kind.num pt.value) ∧
    (pt.quality = .unset → pt.value = pt.defn.default ∧ pt.seq = 0)

/-- The age never exceeds the max age; the point is STALE exactly when its max age is nonzero and its age equals it; an UNSET
point has age 0 (R96). -/
def Point.ageSound (pt : Point) : Prop :=
  pt.age ≤ pt.defn.maxAge ∧ (pt.quality = .stale ↔ pt.defn.maxAge ≠ 0 ∧ pt.age = pt.defn.maxAge) ∧
    (pt.quality = .unset → pt.age = 0)

/-- A lease lies within its bounds (Table 2.1-1). -/
def Lease.sound (l : Lease) : Prop := 1 ≤ l.remaining ∧ l.remaining ≤ l.length ∧ l.length ≤ 65535

/-- The fields of a wait lie within their bounds (Table 2.4-1). -/
def Wait.sound (w : Wait) : Prop := 1 ≤ w.remaining ∧ w.remaining ≤ 65535 ∧ w.lease ≤ 65535

/-- The ports that wait on a point, in order. -/
def Point.waiting (pt : Point) : List Port := pt.waiters.map Wait.port

/-- The claim rights of the point admit its holder (R7). -/
def Point.holderAdmitted (pt : Point) : Prop :=
  match pt.holder with
  | .none => True
  | .port c => pt.defn.rights.hasPort c.port = true ∧ ∀ l ∈ c.lease, l.sound
  | .scanner => pt.defn.rights.internal = true
  | .order _ => pt.defn.rights.internal = true

/-- The claim record is sound: R45 on the waiter list, R7 on the holder and the waiters, and the bounds of the counts. -/
def Point.claimSound (pt : Point) : Prop :=
  pt.waiters.length ≤ Config.waitersMax ∧ pt.waiting.Nodup ∧ (∀ p ∈ pt.waiting, pt.holder.party ≠ some (.port p)) ∧
    (pt.holder = .none → pt.waiters = []) ∧ pt.holderAdmitted ∧
    ∀ w ∈ pt.waiters, w.sound ∧ pt.defn.rights.hasPort w.port = true

/-- Every defined point has the property. -/
def State.everyPoint (s : State) (P : Point → Prop) : Prop := ∀ i, ∀ pt ∈ s.slot i, P pt

/-- The value of every defined point lies within its limits (R3). -/
def State.ValuesSound (s : State) : Prop := s.everyPoint Point.valueSound

/-- Every defined point is STALE exactly at its max age (R96). -/
def State.AgesSound (s : State) : Prop := s.everyPoint Point.ageSound

/-- Every claim record is sound (R45, R7). -/
def State.ClaimsSound (s : State) : Prop := s.everyPoint Point.claimSound

/-- A port's count is the number of points it holds plus the number of waits it has placed, and never exceeds 128 (R35). -/
def State.CountsSound (s : State) : Prop :=
  ∀ p, s.counts.get p = s.heldCount (.port p) + s.waitCount p ∧ s.counts.get p ≤ Config.claimLimit

/-! ### Batches -/

/-- An open batch has at most 16 entries and no point twice (R58). -/
def Batch.sound (b : Batch) : Prop := b.length ≤ Config.batchSize ∧ (b.map BatchEntry.point).Nodup

/-- Every open batch is sound (R58). -/
def State.BatchesSound (s : State) : Prop := ∀ p, ∀ b ∈ s.batches.get p, Batch.sound b

/-! ### Notices -/

/-- The subjects that have a notice in the queue, in order. -/
def NoticeUnit.queued (u : NoticeUnit) : List Subject := u.queue.map Notice.subject

/-- The subjects that have an entry in the owed map, in order. -/
def NoticeUnit.owing (u : NoticeUnit) : List Subject := u.owed.map Owed.subject

/-- At most 32 notices, never two for one subject (R83); the owed map in rising order, only while the queue is full, and apart
from it (R85); no cause set is empty (R82). -/
def NoticeUnit.sound (u : NoticeUnit) : Prop :=
  u.queue.length ≤ Config.queueSize ∧ u.queued.Nodup ∧ (u.owing.map Subject.number).Pairwise (· < ·) ∧
    (u.owed ≠ [] → u.queue.length = Config.queueSize) ∧ (∀ x ∈ u.owing, x ∉ u.queued) ∧
    (∀ n ∈ u.queue, n.causes ≠ 0 ∧ n.merged ≤ Config.mergedMax) ∧ ∀ o ∈ u.owed, o.causes ≠ 0

/-- Every port's notice queue and owed map are sound (R83, R85). -/
def State.NoticesSound (s : State) : Prop := ∀ p, (s.notices.get p).sound

/-- A subscription belongs to a defined point (R71). -/
def State.SubsSound (s : State) : Prop := ∀ p i, (s.sub p i).isSome → (s.slot i).isSome

/-! ### Output lines -/

/-- Every line drives what its binding and its point ask for (R104). -/
def State.OutputsSound (s : State) : Prop := ∀ n : Fin 8, s.outputs[n.val].level = s.lineLevel s.outputs[n.val]

/-! ### Orders -/

/-- The definition of an order is one that ORDER_DEFINE accepts (Table 6.1-1). -/
def OrderDef.sound (d : OrderDef) : Prop :=
  1 ≤ d.runLength ∧ d.runLength ≤ 16 ∧ d.source.val + d.runLength ≤ 512 ∧ d.dest.val + d.runLength ≤ 512 ∧ d.runs ≤ 65535

/-- The live fields of an order lie within their bounds; only an ARMED order holds triggers (R112, R120). -/
def Order.sound (o : Order) : Prop :=
  o.defn.sound ∧ o.pending ≤ Config.pendingMax ∧ (o.phase ≠ .armed → o.pending = 0) ∧ o.remaining ≤ o.defn.runs ∧
    o.missed ≤ Config.countMax ∧ o.faults ≤ Config.countMax

/-- The order of a run in flight is ARMED while the run is RUNNING and DISARMED while it is STOPPING, and the copy under way is
one of its run (R119). -/
def Run.soundFor (r : Run) (o : Order) : Prop :=
  r.position < o.defn.runLength ∧ o.phase = if r.stopping then OrderPhase.disarmed else .armed

/-- The executor: while it is free no order is ready (R123); a run in flight belongs to an order (R119). -/
def State.ExecutorSound (s : State) : Prop :=
  match s.executor with
  | none => ∀ n, ∀ o ∈ s.order n, o.ready = false
  | some r => ∃ o ∈ s.order r.order, r.soundFor o

/-- Every order is sound, and so is the executor (R112, R119, R120, R123). -/
def State.OrdersSound (s : State) : Prop := (∀ n, ∀ o ∈ s.order n, o.sound) ∧ s.ExecutorSound

/-- The order n is ARMED and the point is one of its destinations (R112). -/
def State.isDestOf (s : State) (n : OrderIx) (i : PointIx) : Prop :=
  ∃ o ∈ s.order n, o.phase = .armed ∧ i ∈ o.defn.dests

/-- The party is the holder in that slot. -/
def State.heldAt (s : State) (i : PointIx) (w : Party) : Bool := (s.slot i).any fun pt => pt.heldBy w

/-- Every destination of an ARMED order is held by that order, and an order in any other state holds no point (R112). -/
def State.DestsHeld (s : State) : Prop := ∀ n i, s.heldAt i (.order n) ↔ s.isDestOf n i

/-! ### The scanner -/

/-- The scanner's record lies within its bounds (Table 7.1-1, R140). -/
def Scanner.sound (sc : Scanner) : Prop :=
  1 ≤ sc.entries.length ∧ sc.entries.length ≤ Config.scanListSize ∧ (sc.entries.map ScanEntry.dest).Nodup ∧
    sc.current < sc.entries.length ∧ (sc.phase ≠ .converting → sc.current = 0 ∧ sc.pendingPass = false) ∧
    sc.trigger ≠ .scanEnd ∧ (∀ i, sc.trigger ≠ .point i) ∧ sc.missed ≤ Config.countMax

/-- The scanner, if not EMPTY, is sound (R140). -/
def State.ScannerSound (s : State) : Prop := ∀ sc ∈ s.scanner, sc.sound

/-- The scanner is ARMED or CONVERTING and the point is one of its destinations (R141). -/
def State.isScanned (s : State) (i : PointIx) : Prop :=
  ∃ sc ∈ s.scanner, sc.holds = true ∧ i ∈ sc.entries.map ScanEntry.dest

/-- Every destination of an ARMED or CONVERTING scanner is held by it, and otherwise it holds no point (R141). -/
def State.ScanHeld (s : State) : Prop := ∀ i, s.heldAt i .scanner ↔ s.isScanned i

/-! ### The time base -/

/-- A timer lies within its bounds; a tick is due only at a running one (R159, R160). -/
def Timer.sound (t : Timer) : Prop :=
  1 ≤ t.period ∧ t.period ≤ 65535 ∧ t.remaining ≤ t.period ∧ (t.running = true → 1 ≤ t.remaining) ∧
    (t.running = false → t.due = 0)

/-- The tick generator lies within its bounds; outside cold reset an interval runs exactly while the run state is RUN (R157), and in
cold reset the run state is RUN and no interval runs. -/
def State.TimeSound (s : State) : Prop :=
  1 ≤ s.tickGen.period ∧ s.tickGen.period ≤ Config.tickPeriodMax ∧
    (s.held = false → (s.tickGen.interval.isSome ↔ s.tickGen.running = true)) ∧
    (s.held = true → s.tickGen.running = true ∧ s.tickGen.interval = none) ∧ ∀ n : Fin 4, s.timers[n.val].sound

/-! ### The ports -/

/-- The entry fits a frame of 64 bytes: a request has as many entries as its code allows (R174), and the body of a response has
at most 56 bytes (R194, R198). -/
def Entry.fits : Entry → Prop
  | .accepted _ r => r.wf = true
  | .answered _ _ body => (bodyBytes body).length + 8 ≤ Config.exchangeBytes

/-- A window has at most 4 entries (R176), each of which fits a frame (R174, R194), and a staged scan list has at most 16 (R200);
the outbound frame of an exchange has 8 to 64 bytes (R194), and one that carries the head response stands for an ANSWERED head
(R179); ATTNn has the level that R182 asks for. -/
def PortState.sound (ps : PortState) (u : NoticeUnit) : Prop :=
  ps.window.length ≤ Config.windowSize ∧ (∀ e ∈ ps.window, e.fits) ∧
    ps.staged.length ≤ Config.scanListSize ∧ ps.attn = attnLevel ps u ∧
    ∀ x ∈ ps.exchange, 8 ≤ x.frame.length ∧ x.frame.length ≤ Config.exchangeBytes ∧
      (x.carries = true → ∃ e ∈ ps.window.head?, e.isAnswered = true)

/-- Every port is sound (R174, R176, R179, R182, R194, R200). -/
def State.PortsSound (s : State) : Prop := ∀ p, (s.ports.get p).sound (s.notices.get p)

/-- The configuration set always holds at least one port (R185). -/
def State.ConfigSound (s : State) : Prop := PortSet.isEmpty s.config = false

/-! ### Words of the statements -/

/-- Every step that ends in a next state keeps the property. -/
def KeptByStep (Inv : State → Prop) : Prop := ∀ s t, Inv s → step s = .next t → Inv t

/-- The request is the oldest ACCEPTED entry of the port, and the part is not held in reset: its owner executes it next (R177). -/
def State.Due (s : State) (p : Port) (r : Request) : Prop := s.held = false ∧ s.presented p = some r

/-- From `s` to `t` the ports change only in that p's oldest ACCEPTED entry is answered (R177) and that every attention line has
the level R182 asks for. -/
def Replied (s t : State) (p : Port) (status : Status) (body : Body) : Prop :=
  ∀ q, t.ports.get q =
    { s.ports.get q with
      window := if q = p then answerOldest status body (s.ports.get q).window else (s.ports.get q).window
      attn := attnLevel (t.ports.get q) (t.notices.get q) }

/-- From `s` to `t` the ports change only in their attention lines, which have the level R182 asks for. -/
def Quiet (s t : State) : Prop :=
  ∀ q, t.ports.get q = { s.ports.get q with attn := attnLevel (t.ports.get q) (t.notices.get q) }

/-- The command answers its port and changes nothing but that: a refusal, or a request that only reports. -/
def OnlyReplies (c : Instr) (s : State) (p : Port) (status : Status) (body : Body) : Prop :=
  ∃ t, exec c s = .next t ∧ Replied s t p status body ∧ { t with ports := s.ports } = s

/-- The indices are the ones that the index fields carry, each 511 or less. -/
def Names (fields : List Half) (ixs : List PointIx) : Prop := fields.map BitVec.toNat = ixs.map Fin.val

/-- The arguments of a CLAIM pass R36: these are its points and its mode. -/
def ClaimArgsPass (args : ClaimArgs) (ixs : List PointIx) (mode : ClaimMode) : Prop :=
  Names args.points ixs ∧ ixs.Nodup ∧
    args.mode = (match mode with
      | .hold => 0x00
      | .writeOnce => 0x01) ∧
    (args.wait = true → args.waitLimit ≠ 0)

/-- The point is defined and its rights include the port (R37). -/
def State.Claimable (s : State) (p : Port) (i : PointIx) : Prop := ∃ pt ∈ s.slot i, pt.defn.rights.hasPort p = true

/-- The point is defined, and free or held by the port itself (R38). -/
def State.Available (s : State) (p : Port) (i : PointIx) : Prop :=
  ∃ pt ∈ s.slot i, pt.holder.party = none ∨ pt.holder.party = some (.port p)

/-- The point is defined, INTERNAL is among its rights, and it is free (R48). -/
def State.FreeForInternal (s : State) (i : PointIx) : Prop :=
  ∃ pt ∈ s.slot i, pt.defn.rights.internal = true ∧ pt.holder.party = none

/-- The causes of a list that are for one port, each with its subject. -/
def raisedFor (q : Port) (rs : List Raise) : List (Subject × Cause) :=
  (rs.filter fun r => r.port = q).map fun r => (r.subject, r.cause)

/-- The notice unit of a port after it has taken causes in order, each with its subject's state in `t` (R83 to R85). -/
def NoticeUnit.takeAll (u : NoticeUnit) (t : State) (cs : List (Subject × Cause)) : NoticeUnit :=
  cs.foldl (fun u c => u.take c.1 c.2 (t.subjectState c.1)) u

/-- The CLAIM_GRANTED causes that a port receives when one event hands points over: one for each point that passes to it, in
ascending point order (R46, R47, R81); `heir` is the port, if any, that a point passes to. -/
def State.grantsFor (s : State) (q : Port) (heir : Point → Option Port) : List (Subject × Cause) :=
  ((List.finRange 512).filter fun i => (s.slot i).any fun pt => heir pt = some q).map fun i => (.point i, .claimGranted)

/-- A trigger source field carries this source: its class, and its number where the class has one, which is then in range (R113,
R193). -/
def CarriesTrigger (field : TriggerArgs) : Trigger → Prop
  | .request => field.cls = 0x00
  | .line n => field.cls = 0x01 ∧ field.number.toNat = n.val
  | .timer n => field.cls = 0x02 ∧ field.number.toNat = n.val
  | .chain n => field.cls = 0x03 ∧ field.number.toNat = n.val
  | .scanEnd => field.cls = 0x04
  | .point i => field.cls = 0x05 ∧ field.number.toNat = i.val

/-- The bytes of fields in order, each given by its width in bytes and its number, most significant byte first (R193). -/
def fields (fs : List (Nat × Nat)) : List Byte :=
  fs.flatMap fun f => (List.range f.1).reverse.map fun k => BitVec.ofNat 8 (f.2 / 256 ^ k)

end Sys2Proof.Machine
end

