-- ==== Sys2Proof/Certificates/Slice0/Obligations.lean ====
section
/-! DEFINITION. Certificates/Slice0/Obligations.lean: the statements for the provers. -/

open Sys2Proof Sys2Proof.Machine

/-! ### The queue, and the start of the part -/

/-- A step takes the command at the front of the queue; on an empty queue the part idles (log 3). -/
def Obligations.StepRunsFrontCommand : Prop :=
  (∀ c rest (s : State), s.pending = c :: rest → step s = exec c { s with pending := rest }) ∧
    ∀ s : State, s.pending = [] → step s = .next s

/-- Every command ends in a next state and leaves the queue alone. The spec gives the part no way to stop; that a command whose
event is not due ends in next too is log 2, and the queue is the model's own, log 3 (both DESIGN CHOICE). -/
def Obligations.EveryCommandEndsInNext : Prop :=
  ∀ c s, ∃ t, exec c s = .next t ∧ t.pending = s.pending

/-- A command that names an event that is not due is passed over (log 2, DESIGN CHOICE): a request not presented; any command
but COLD_RESET and COLD_RESET_END while the part is held in reset (log 4); a select or an exchange end out of place; a
consumer's tick while the run state is STOP (R159) or no tick is due at it (log 6); POINT_STALE, LEASE_LAPSE, WAIT_EXPIRY and
TIMER_EXPIRY whose named outcome does not happen at the tick (log 8); a copy with the executor free; a completion with no
conversion in flight; an edge to the level already settled. -/
def Obligations.CommandNotDueIsPassedOver : Prop :=
  ∀ s : State,
    (∀ c p r, c.request? = some (p, r) → ¬ s.Due p r → exec c s = .next s) ∧
    (s.held = true → ∀ c, c ≠ .coldReset → (∀ pins, c ≠ .coldResetEnd pins) → exec c s = .next s) ∧
    (s.held = false → ∀ pins, exec (.coldResetEnd pins) s = .next s) ∧
    (∀ p k, (s.ports.get p).exchange.isSome → exec (.selectFalling p k) s = .next s) ∧
    (∀ p bs n, (s.ports.get p).exchange = none → exec (.exchangeEnd p bs n) s = .next s) ∧
    (s.tickGen.running = false → exec .tick s = .next s ∧ exec .tickAgeing s = .next s ∧
      exec .claimArbiterTick s = .next s ∧ (∀ i, exec (.pointStale i) s = .next s) ∧ (∀ i, exec (.leaseLapse i) s = .next s) ∧
      (∀ i p, exec (.waitExpiry i p) s = .next s) ∧ (∀ n, exec (.timerTick n) s = .next s) ∧
      ∀ n, exec (.timerExpiry n) s = .next s) ∧
    (s.tickGen.dueTable = 0 → exec .tickAgeing s = .next s ∧ ∀ i, exec (.pointStale i) s = .next s) ∧
    (s.tickGen.dueArbiter = 0 → exec .claimArbiterTick s = .next s ∧ (∀ i, exec (.leaseLapse i) s = .next s) ∧
      ∀ i p, exec (.waitExpiry i p) s = .next s) ∧
    (∀ n : Fin 4, (s.timers[n.val].running = false ∨ s.timers[n.val].due = 0) →
      exec (.timerTick n) s = .next s ∧ exec (.timerExpiry n) s = .next s) ∧
    (∀ i, s.goesStale i = false → exec (.pointStale i) s = .next s) ∧
    (∀ i, (∀ pt ∈ s.slot i, pt.lapsing = none) → exec (.leaseLapse i) s = .next s) ∧
    (∀ i p, (∀ pt ∈ s.slot i, p ∉ pt.expiring) → exec (.waitExpiry i p) s = .next s) ∧
    (∀ n : Fin 4, 1 < s.timers[n.val].remaining → exec (.timerExpiry n) s = .next s) ∧
    (s.executor = none → exec .orderCopy s = .next s) ∧
    (s.converting = false → ∀ raw, exec (.conversionCompletion raw) s = .next s) ∧
    ∀ n : Fin 8, exec (.lineEdge n s.lines[n.val].settled) s = .next s

/-- COLD_RESET leaves every block as its rule says (R30, R57, R58, R91, R102, R111, R140, R157, R160, R165, R192, R200), and
holds the part there (log 4). COLD_RESET_END starts the first tick interval and takes every settled level from its pin, without
an edge (R157, R165). -/
def Obligations.ColdResetAndItsEnd : Prop :=
  (∀ s : State, ∃ t, exec .coldReset s = .next t ∧ t.held = true ∧ t.pending = s.pending ∧
     (∀ i, t.slot i = none) ∧ t.epoch = 0 ∧ (∀ p, t.counts.get p = 0 ∧ t.batches.get p = none) ∧
     (∀ p, (∀ i, t.sub p i = none) ∧ (t.notices.get p).queue = [] ∧ (t.notices.get p).owed = []) ∧
     (∀ n : Fin 8, t.outputs[n.val] = { point := none, safe := .low, invert := false, level := .low }) ∧
     (∀ n, t.order n = none) ∧ t.executor = none ∧ t.scanner = none ∧
     t.tickGen.period = 10 ∧ t.tickGen.running = true ∧
     (∀ n : Fin 4, t.timers[n.val].period = 1 ∧ t.timers[n.val].mode = .oneShot ∧ t.timers[n.val].running = false ∧
       t.timers[n.val].remaining = 0) ∧
     (∀ n : Fin 8, t.lines[n.val].edge = .off) ∧
     (∀ p, (t.ports.get p).window = [] ∧ (t.ports.get p).exchange = none ∧ (t.ports.get p).droppedFlag = false ∧
       (t.ports.get p).resetFlag = true ∧ (t.ports.get p).responseAttn = true ∧ (t.ports.get p).noticeAttn = true ∧
       (t.ports.get p).attn = .high ∧ (t.ports.get p).staged = []) ∧
     t.config = { a := true, b := false, c := false, d := false } ∧
     ∀ p, portStatusBytes t p = [0x00, if p = .a then 0x60 else 0x20, 0x00]) ∧
  ∀ (s : State) (pins : BitVec 8), s.held = true → ∃ t, exec (.coldResetEnd pins) s = .next t ∧
    t.held = false ∧ t.tickGen = { s.tickGen with interval := some s.tickGen.period } ∧
    (∀ n : Fin 8, t.lines[n.val] = { s.lines[n.val] with settled := if pins.getLsbD n.val then .high else .low }) ∧
    Quiet s t ∧ { t with held := s.held, tickGen := s.tickGen, lines := s.lines, ports := s.ports } = s

/-! ### What every state keeps true -/

/-- Every invariant holds right after reset (TimeSound as in logs 4 and 7). -/
def Obligations.ResetStateIsSound : Prop :=
  State.reset.ValuesSound ∧ State.reset.AgesSound ∧ State.reset.ClaimsSound ∧ State.reset.CountsSound ∧
    State.reset.BatchesSound ∧ State.reset.NoticesSound ∧ State.reset.SubsSound ∧ State.reset.OutputsSound ∧
    State.reset.OrdersSound ∧ State.reset.DestsHeld ∧ State.reset.ScannerSound ∧ State.reset.ScanHeld ∧
    State.reset.TimeSound ∧ State.reset.PortsSound ∧ State.reset.ConfigSound

/-- The value of a defined point always lies within its limits (R3). -/
def Obligations.ValuesStayWithinLimits : Prop :=
  KeptByStep State.ValuesSound

/-- A point is STALE exactly when its max age is nonzero and its age equals it (R96). -/
def Obligations.StaleExactlyAtMaxAge : Prop :=
  KeptByStep State.AgesSound

/-- At most three waiters, each once, never the holder; no waiter on a free point; every holder and waiter within the rights
(R45, R7). A port's count is its points held plus its waits placed, and never exceeds 128 (R35). -/
def Obligations.ClaimsAndCountsStaySound : Prop :=
  (KeptByStep State.ClaimsSound) ∧
  KeptByStep fun s => s.ClaimsSound ∧ s.CountsSound

/-- A queue has at most 32 notices and never two for one subject; the owed map is used only while the queue is full (R83, R85). -/
def Obligations.NoticeQueuesStaySound : Prop :=
  KeptByStep State.NoticesSound

/-- A window has at most 4 entries, requests of lengths that their codes allow and responses of at most 56 bytes of body, so
that every outbound frame has 8 to 64 bytes; a staged list has at most 16 entries, and ATTNn follows its inputs (R174, R176,
R182, R194, R198, R200). -/
def Obligations.PortsStaySound : Prop :=
  KeptByStep State.PortsSound

/-- Every output line drives the level that its binding and its point ask for, after every event (R104, R105). -/
def Obligations.OutputLinesFollowTheirPoints : Prop :=
  KeptByStep State.OutputsSound

/-- Pending never exceeds 3, only ARMED orders hold triggers, a run in flight belongs to its order, and a free executor leaves
no order ready (R112, R119, R120, R123). -/
def Obligations.OrdersStaySound : Prop :=
  KeptByStep State.OrdersSound

/-- Every destination of an ARMED order is held by that order, and an order in any other state holds no point (R112). Every
destination of an ARMED or CONVERTING scanner is held by it, and it holds no point otherwise (R141). -/
def Obligations.InternalHoldersHoldTheirDestinations : Prop :=
  (KeptByStep State.DestsHeld) ∧
  KeptByStep State.ScanHeld

/-- The scanner keeps 1 to 16 entries with no destination twice, a current entry within its list, and a trigger source it may
select (R140, R142). -/
def Obligations.ScannerRecordStaysSound : Prop :=
  KeptByStep fun s => s.PortsSound ∧ s.ScannerSound

/-- Batches keep to 16 entries with no point twice (R58), subscriptions to defined points (R71), the time base to its bounds
(R157, R160), and the configuration set to at least one port (R185). That a stopped timer has no tick due is log 7, and that no
interval runs in cold reset, where the run state is RUN, is log 4 (both DEDUCED). -/
def Obligations.BatchesSubscriptionsTimeAndSetStaySound : Prop :=
  KeptByStep State.BatchesSound ∧ KeptByStep State.SubsSound ∧ KeptByStep State.TimeSound ∧ KeptByStep State.ConfigSound

/-! ### The point table -/

/-- READ: one result per index, as the points stand; it changes nothing (R15). -/
def Obligations.ReadReportsEachPoint : Prop :=
  ∀ (s : State) (p : Port) fields, s.Due p (.read fields) →
    (∀ ixs, Names fields ixs → OnlyReplies (.read p fields) s p .ok (.read (ixs.map s.readResult))) ∧
    ((∃ f ∈ fields, 512 ≤ f.toNat) → OnlyReplies (.read p fields) s p .badArg .empty) ∧
    (∀ i pt, s.slot i = some pt → s.readResult i = ⟨.ok, pt.value, pt.seq, pt.quality, pt.holder.party⟩) ∧
    ∀ i, s.slot i = none → s.readResult i = ⟨.notDefined, 0, 0, .unset, none⟩

/-- WRITE: the entries are taken in list order, each seeing the effects of those before it; an index above 511 refuses the whole
(R1, R17). Each entry is checked in order, and its result carries value and sequence as they stand after it (R18, R22). That the
executor may choose between two entries, after each trigger, is log 9 (DEDUCED). -/
def Obligations.WriteTakesEntriesInOrder : Prop :=
  ((∀ (s : State) (p : Port) args, s.Due p (.write args) →
     (∀ es : List WriteEntry,
       args.map (fun a => (a.point.toNat, a.value, a.suspect)) = es.map (fun e => (e.point.val, e.value, e.suspect)) →
       ∃ t, exec (.write p args) s = .next t ∧ Replied s t p .ok (.write (s.takeWrites p es).2) ∧
         { t with ports := s.ports } = (s.takeWrites p es).1) ∧
     ((∃ a ∈ args, 512 ≤ a.point.toNat) → OnlyReplies (.write p args) s p .badArg .empty)) ∧
   (∀ (s : State) (p : Port), s.takeWrites p [] = (s, [])) ∧
   ∀ (s : State) (p : Port) e es, s.takeWrites p (e :: es) =
     (((s.takeWrite p e).1.takeWrites p es).1, (s.takeWrite p e).2 :: ((s.takeWrite p e).1.takeWrites p es).2)) ∧
  ∀ (s : State) (p : Port) (e : WriteEntry),
    (s.slot e.point = none → s.takeWrite p e = (s, ⟨.notDefined, 0, 0⟩)) ∧
    ∀ pt, s.slot e.point = some pt →
      (pt.heldBy (.port p) = false → s.takeWrite p e = (s, ⟨.notHolder, pt.value, pt.seq⟩)) ∧
      (pt.heldBy (.port p) = true →
        (pt.defn.rejects (pt.defn.kind.num e.value) = true → s.takeWrite p e = (s, ⟨.outOfRange, pt.value, pt.seq⟩)) ∧
        (pt.defn.rejects (pt.defn.kind.num e.value) = false →
          (s.takeWrite p e).2.status = (if pt.defn.inRange (pt.defn.kind.num e.value) then .ok else .okClamped) ∧
          ∃ pt' ∈ (s.takeWrite p e).1.slot e.point,
            (s.takeWrite p e).2.value = pt'.value ∧ (s.takeWrite p e).2.seq = pt'.seq ∧
            pt'.value = pt.defn.fit (pt.defn.kind.num e.value) ∧ pt'.seq = pt.seq + 1))

/-- What is stored of a number: its own 32 bits within the limits, the nearer limit outside (R3, R19, R128, R149). -/
def Obligations.LimitsAreAppliedByKind : Prop :=
  (∀ d : PointDef, ∀ v, d.inRange (d.kind.num v) = true → d.fit (d.kind.num v) = v) ∧
    (∀ (d : PointDef) (x : Int), x < d.lowNum → d.fit x = d.low) ∧
    (∀ (d : PointDef) (x : Int), d.lowNum ≤ d.highNum → d.highNum < x → d.fit x = d.high) ∧
    (∀ (d : PointDef) (x : Int), d.inRange x = true → d.kind.num (d.fit x) = x) ∧
    (∀ (d : PointDef) (x : Int), (d.inRange x = true ↔ d.lowNum ≤ x ∧ x ≤ d.highNum) ∧ d.lowNum = d.kind.num d.low ∧
      d.highNum = d.kind.num d.high) ∧
    (∀ (d : PointDef) (x : Int), d.rejects x = true ↔ d.limitAction = .reject ∧ (x < d.lowNum ∨ d.highNum < x)) ∧
    ∀ v : Word, Kind.u32.num v = v.toNat ∧ Kind.s32.num v = v.toInt ∧ Kind.bool.num v = v.toNat

/-- An accepted port write stores value, quality, sequence and age, restarts the lease, and ends a WRITE_ONCE claim with
handover (R18, R20, R33, R34). -/
def Obligations.AcceptedWriteStores : Prop :=
  ∀ (s : State) (p : Port) (e : WriteEntry) (pt : Point), s.slot e.point = some pt → pt.heldBy (.port p) = true →
    pt.defn.rejects (pt.defn.kind.num e.value) = false →
    let t := (s.takeWrite p e).1
    let after : Point :=
      { pt with value := pt.defn.fit (pt.defn.kind.num e.value), quality := if e.suspect then .suspect else .good,
                seq := pt.seq + 1, age := 0, holder := pt.holder.restart }
    let stored := s.storeAndRaise e.point pt (pt.defn.fit (pt.defn.kind.num e.value)) (if e.suspect then .suspect else .good)
      (!pt.defn.inRange (pt.defn.kind.num e.value))
    t = (if pt.holder.isOnce then stored.releasePoint p e.point else stored) ∧
    t.slot e.point = some (if pt.holder.isOnce then after.release else after) ∧
    (∀ j, j ≠ e.point → t.slot j = s.slot j) ∧
    (∀ q, t.counts.get q = if q = p ∧ pt.holder.isOnce = true then s.counts.get q - 1 else s.counts.get q) ∧
    { t with points := s.points, counts := s.counts, notices := s.notices, outputs := s.outputs, orders := s.orders,
             executor := s.executor, scanner := s.scanner } = s

/-- A write that takes effect reaches its neighbours in the same event: the lines bound to the point, the orders that select it,
and every subscriber (R21, R74 to R76). -/
def Obligations.WriteReachesItsNeighbours : Prop :=
  ∀ (s : State) (i : PointIx) (pt : Point) (v : Word) (q : Quality) (clamped : Bool), s.slot i = some pt →
    let t := s.storeAndRaise i pt v q clamped
    t.slot i = some { pt with value := v, quality := q, seq := pt.seq + 1, age := 0, holder := pt.holder.restart } ∧
    (∀ j, j ≠ i → t.slot j = s.slot j) ∧
    (∀ n : Fin 8, t.outputs[n.val] =
      if s.outputs[n.val].point = some i then { s.outputs[n.val] with level := t.lineLevel s.outputs[n.val] }
      else s.outputs[n.val]) ∧
    (t.orders = (s.deliver (.point i)).orders ∧ t.executor = (s.deliver (.point i)).executor ∧
      t.scanner = (s.deliver (.point i)).scanner) ∧
    (∀ p', t.notices.get p' =
      NoticeUnit.takeAll
        { s.notices.get p' with
          subs := (s.notices.get p').subs.set i.val ((s.sub p' i).map fun sub => sub.afterWrite pt.defn.kind v) }
        t (((s.sub p' i).toList.flatMap fun sub => sub.causes pt.defn.kind v pt.quality q clamped).map fun c => (.point i, c))) ∧
    { t with points := s.points, notices := s.notices, outputs := s.outputs, orders := s.orders, executor := s.executor,
             scanner := s.scanner } = s ∧
    (let u := s.store i pt v q
     t = u.raiseAll (s.writeRaises i pt v q clamped) ∧ { u with notices := t.notices } = t ∧
     (∀ p', u.notices.get p' =
       { s.notices.get p' with
         subs := (s.notices.get p').subs.set i.val ((s.sub p' i).map fun sub => sub.afterWrite pt.defn.kind v) }) ∧
     ∀ p', raisedFor p' (s.writeRaises i pt v q clamped) =
       ((s.sub p' i).toList.flatMap fun sub => sub.causes pt.defn.kind v pt.quality q clamped).map fun c => (.point i, c))

/-- The condition of a subscription at an accepted write that stores v: WRITE always, CHANGE when v differs from the reference,
DEADBAND when the difference, exact and by kind, is the deadband or more (R74 to R76). -/
def Obligations.SubscriptionConditions : Prop :=
  (∀ (sub : Sub) (k : Kind) (v : Word) (before after : Quality) (clamped : Bool),
    (Cause.written ∈ sub.causes k v before after clamped ↔ sub.condition = .write) ∧
    (Cause.quality ∈ sub.causes k v before after clamped ↔ before ≠ after) ∧
    (Cause.clamped ∈ sub.causes k v before after clamped ↔ clamped = true) ∧
    (sub.condition = .write → Cause.changed ∉ sub.causes k v before after clamped ∧ (sub.afterWrite k v).reference = v) ∧
    (sub.condition = .change ∨ sub.condition = .deadband none →
      (Cause.changed ∈ sub.causes k v before after clamped ↔ v ≠ sub.reference) ∧ (sub.afterWrite k v).reference = v) ∧
    (∀ d, sub.condition = .deadband (some d) →
      (Cause.changed ∈ sub.causes k v before after clamped ↔ d.toNat ≤ (k.num v - k.num sub.reference).natAbs) ∧
      (sub.afterWrite k v).reference =
        if d.toNat ≤ (k.num v - k.num sub.reference).natAbs then v else sub.reference) ∧
    (sub.afterWrite k v).condition = sub.condition) ∧
  (∀ d, (Condition.deadband d).storedAt .bool = .deadband none) ∧
  Kind.u32.distance 0xFFFFFFFF 0 = 4294967295 ∧ Kind.s32.distance 0x80000000 0x7FFFFFFF = 4294967295

/-- DEFINE accepts exactly the arguments that pass checks 2 to 4 of R9; bits 0 to 4 of the claim rights stand for A, B, C, D and
INTERNAL and are not all clear, and bits 5 to 7 are not examined (R193). It defines an undefined slot or redefines a free point
in one event, and a held point is BUSY (R9 to R11, R80, R105). UNDEFINE removes a free point with its subscriptions, and its
lines go to their safe levels (R12, R80, R105). -/
def Obligations.DefineAndUndefine : Prop :=
  (∀ r : Rights, r.hasPort .a = r.ports.a ∧ r.hasPort .b = r.ports.b ∧ r.hasPort .c = r.ports.c ∧ r.hasPort .d = r.ports.d) ∧
  (∀ (args : DefineArgs) (d : PointDef), pointDef? args = some d ↔
     args.kind = (match d.kind with
        | .u32 => 0x00
        | .s32 => 0x01
        | .bool => 0x02) ∧
       args.limitAction = (match d.limitAction with
        | .reject => 0x00
        | .clamp => 0x01) ∧
       d.default = args.default ∧
       (if d.kind = .bool then d.low = 0 ∧ d.high = 1 else d.low = args.low ∧ d.high = args.high) ∧
       d.maxAge = args.maxAge.toNat ∧ d.rights.ports.a = args.rights.getLsbD 0 ∧
       d.rights.ports.b = args.rights.getLsbD 1 ∧ d.rights.ports.c = args.rights.getLsbD 2 ∧
       d.rights.ports.d = args.rights.getLsbD 3 ∧ d.rights.internal = args.rights.getLsbD 4 ∧
       args.rights.extractLsb' 0 5 ≠ 0 ∧
       d.lowNum ≤ d.highNum ∧ d.inRange (d.kind.num d.default) = true) ∧
  (∀ (s : State) (p : Port) args, s.Due p (.define args) →
     ((512 ≤ args.point.toNat ∨ pointDef? args = none) → OnlyReplies (.define p args) s p .badArg .empty) ∧
     ∀ (i : PointIx) d, args.point.toNat = i.val → pointDef? args = some d →
       (s.slotHeld i = true → OnlyReplies (.define p args) s p .busy .empty) ∧
       (s.slotHeld i = false → ∃ t, exec (.define p args) s = .next t ∧ Replied s t p .ok .empty ∧
         t.slot i = some { defn := d, value := d.default, quality := .unset, seq := 0, age := 0, holder := .none, waiters := [] } ∧
         (∀ j, j ≠ i → t.slot j = s.slot j) ∧
         (∀ q, t.notices.get q =
           NoticeUnit.takeAll { s.notices.get q with subs := (s.notices.get q).subs.set i.val none } t
             (if (s.sub q i).isSome then [(.point i, .undefined)] else [])) ∧
         (∀ n : Fin 8, t.outputs[n.val] =
           if s.outputs[n.val].point = some i then { s.outputs[n.val] with level := s.outputs[n.val].safe }
           else s.outputs[n.val]) ∧
         { t with points := s.points, notices := s.notices, outputs := s.outputs, ports := s.ports } = s)) ∧
  ∀ (s : State) (p : Port) field, s.Due p (.undefine field) →
    (512 ≤ field.toNat → OnlyReplies (.undefine p field) s p .badArg .empty) ∧
    ∀ i : PointIx, field.toNat = i.val →
      (s.slot i = none → OnlyReplies (.undefine p field) s p .notDefined .empty) ∧
      (s.slotHeld i = true → OnlyReplies (.undefine p field) s p .busy .empty) ∧
      (∀ pt, s.slot i = some pt → s.slotHeld i = false → ∃ t, exec (.undefine p field) s = .next t ∧
        Replied s t p .ok .empty ∧ t.slot i = none ∧ (∀ j, j ≠ i → t.slot j = s.slot j) ∧
        (∀ q, t.notices.get q =
          NoticeUnit.takeAll { s.notices.get q with subs := (s.notices.get q).subs.set i.val none } t
            (if (s.sub q i).isSome then [(.point i, .undefined)] else [])) ∧
        (∀ n : Fin 8, t.outputs[n.val] =
          if s.outputs[n.val].point = some i then { s.outputs[n.val] with level := s.outputs[n.val].safe }
          else s.outputs[n.val]) ∧
        { t with points := s.points, notices := s.notices, outputs := s.outputs, ports := s.ports } = s)

/-- TABLE_RESET clears the live state of every owner in one event and answers every ACCEPTED entry of every port (Table 1.5-1,
R26, R55, R93, R136, R155, R160, R190); that the ticks due at a timer are dropped as it stops is log 7 (DEDUCED). -/
def Obligations.TableResetClearsLiveState : Prop :=
  ∀ (s : State) (p : Port), s.Due p .tableReset → ∃ t, exec (.tableReset p) s = .next t ∧
    (∀ i, t.slot i = (s.slot i).map fun pt =>
      { defn := pt.defn, value := pt.defn.default, quality := .unset, seq := 0, age := 0, holder := .none, waiters := [] }) ∧
    t.epoch = s.epoch + 1 ∧ (∀ q, t.counts.get q = 0 ∧ t.batches.get q = none) ∧
    (∀ q, (t.notices.get q).queue = [] ∧ (t.notices.get q).owed = [] ∧ ∀ i, t.sub q i = (s.sub q i).map fun sub =>
      { sub with reference := ((s.slot i).map fun pt => pt.defn.default).getD sub.reference }) ∧
    (∀ n, t.order n = (s.order n).map fun o => { o with phase := .disarmed, pending := 0 }) ∧
    t.executor = (s.executor.map fun r => { r with stopping := true }) ∧
    t.scanner = (s.scanner.map fun sc => { sc with phase := .defined, current := 0, pendingPass := false }) ∧
    (∀ n : Fin 4, t.timers[n.val] = { s.timers[n.val] with running := false, due := 0 }) ∧
    (∀ n : Fin 8, t.outputs[n.val] =
      if (s.outputs[n.val].point.bind s.slot).isSome then { s.outputs[n.val] with level := s.outputs[n.val].safe }
      else s.outputs[n.val]) ∧
    (∀ q, t.ports.get q =
      { s.ports.get q with
        window :=
          ((if q = p then answerOldest .ok .empty (s.ports.get q).window else (s.ports.get q).window).map fun e =>
            match e with
            | .accepted seq _ => .answered seq .tableReset .empty
            | .answered seq st b => .answered seq st b)
        attn := attnLevel (t.ports.get q) (t.notices.get q) }) ∧
    { t with points := s.points, epoch := s.epoch, counts := s.counts, batches := s.batches, notices := s.notices,
             orders := s.orders, executor := s.executor, scanner := s.scanner, timers := s.timers, outputs := s.outputs,
             ports := s.ports } = s

/-! ### Claims -/

/-- A CLAIM that finds no occupied point grants every listed point together: free points newly, held ones afresh (R40, R41). -/
def Obligations.ClaimGrantsEveryPoint : Prop :=
  ∀ (s : State) (p : Port) args ixs mode, s.Due p (.claim args) → ClaimArgsPass args ixs mode →
    (∀ i ∈ ixs, s.Claimable p i ∧ s.Available p i) →
    s.counts.get p + s.freeCount ixs ≤ 128 →
    ∃ t, exec (.claim p args) s = .next t ∧ Replied s t p .ok .empty ∧
      (∀ i ∈ ixs, t.slot i = (s.slot i).map fun pt =>
        { pt with
          holder := .port
            { port := p
              lease := if args.lease = 0 then none else some { length := args.lease.toNat, remaining := args.lease.toNat }
              mode := mode } }) ∧
      (∀ i, i ∉ ixs → t.slot i = s.slot i) ∧
      (∀ q, t.counts.get q = if q = p then s.counts.get q + s.freeCount ixs else s.counts.get q) ∧
      { t with points := s.points, counts := s.counts, ports := s.ports } = s ∧
      s.freeCount ixs = (ixs.filter fun i => (s.slot i).any fun pt => pt.holder = .none).length

/-- A refused CLAIM grants nothing and places no wait; the response names the first failing point (R36, R37, R38, R40). A CLAIM
with the wait flag that finds an occupied point places a wait at the tail, or is refused (R39). -/
def Obligations.ClaimRefusedOrWaiting : Prop :=
  (∀ (s : State) (p : Port) args, s.Due p (.claim args) →
     (((∃ f ∈ args.points, 512 ≤ f.toNat) ∨ ¬ args.points.Nodup ∨ 1 < args.mode.toNat ∨
         (args.wait = true ∧ args.waitLimit = 0)) →
       OnlyReplies (.claim p args) s p .badArg .empty) ∧
     ∀ ixs mode, ClaimArgsPass args ixs mode →
       (∀ before i after, ixs = before ++ i :: after → (∀ j ∈ before, s.Claimable p j) →
         (s.slot i = none → OnlyReplies (.claim p args) s p .notDefined (.claim i none 0)) ∧
         ∀ pt, s.slot i = some pt → pt.defn.rights.hasPort p = false →
           OnlyReplies (.claim p args) s p .noRight (.claim i none 0)) ∧
       (∀ before i after pt w, ixs = before ++ i :: after → (∀ j ∈ ixs, s.Claimable p j) →
         (∀ j ∈ before, s.Available p j) → s.slot i = some pt → pt.holder.party = some w → w ≠ .port p →
         args.wait = false → OnlyReplies (.claim p args) s p .held (.claim i (some w) 0)) ∧
       ((∀ j ∈ ixs, s.Claimable p j ∧ s.Available p j) → 128 < s.counts.get p + s.freeCount ixs →
         OnlyReplies (.claim p args) s p .limit .empty)) ∧
  ∀ (s : State) (p : Port) args ixs mode, s.Due p (.claim args) → ClaimArgsPass args ixs mode →
    args.wait = true → (∀ j ∈ ixs, s.Claimable p j) → (∃ j ∈ ixs, ¬ s.Available p j) →
    (1 < ixs.length → OnlyReplies (.claim p args) s p .badArg .empty) ∧
    ∀ i pt w, ixs = [i] → s.slot i = some pt → pt.holder.party = some w →
      (p ∈ pt.waiting → OnlyReplies (.claim p args) s p .state .empty) ∧
      (p ∉ pt.waiting → 3 ≤ pt.waiters.length → OnlyReplies (.claim p args) s p .busy .empty) ∧
      (p ∉ pt.waiting → pt.waiters.length < 3 → 128 < s.counts.get p + 1 →
        OnlyReplies (.claim p args) s p .limit .empty) ∧
      (p ∉ pt.waiting → pt.waiters.length < 3 → s.counts.get p + 1 ≤ 128 →
        ∃ t, exec (.claim p args) s = .next t ∧ Replied s t p .waiting (.claim i (some w) (pt.waiters.length + 1)) ∧
          t.slot i = some
            { pt with waiters := pt.waiters ++
                [{ port := p, lease := args.lease.toNat, mode := mode, remaining := args.waitLimit.toNat }] } ∧
          (∀ j, j ≠ i → t.slot j = s.slot j) ∧
          (∀ q, t.counts.get q = if q = p then s.counts.get q + 1 else s.counts.get q) ∧
          { t with points := s.points, counts := s.counts, ports := s.ports } = s)

/-- A point that loses its holder passes in the same event to the head of its waiter list, with that wait's own terms and a
fresh lease, or becomes free (R34, R42, R46). -/
def Obligations.HandoverToTheOldestWaiter : Prop :=
  (∀ (s : State) (p : Port) (i : PointIx) (pt : Point), s.slot i = some pt →
     let t := s.releasePoint p i
     (pt.waiters = [] → t.slot i = some { pt with holder := .none } ∧ t.notices = s.notices) ∧
     (∀ w rest, pt.waiters = w :: rest →
       t.slot i = some
         { pt with
           holder := .port
             { port := w.port
               lease := if w.lease = 0 then none else some { length := w.lease, remaining := w.lease }
               mode := w.mode }
           waiters := rest } ∧
       ∀ q, t.notices.get q = (s.notices.get q).takeAll t (if q = w.port then [(.point i, .claimGranted)] else [])) ∧
     (∀ j, j ≠ i → t.slot j = s.slot j) ∧
     (∀ q, t.counts.get q = if q = p then s.counts.get q - 1 else s.counts.get q) ∧
     { t with points := s.points, counts := s.counts, notices := s.notices } = s) ∧
  (∀ pt : Point, pt.waiters = [] → pt.release = { pt with holder := .none }) ∧
  (∀ (pt : Point) w rest, pt.waiters = w :: rest → pt.release =
    { pt with
      holder := .port
        { port := w.port
          lease := if w.lease = 0 then none else some { length := w.lease, remaining := w.lease }
          mode := w.mode }
      waiters := rest }) ∧
  ∀ (s : State) (w : Party),
    (∀ i, (s.releaseHeld w).slot i = (s.slot i).map fun pt => if pt.heldBy w then pt.release else pt) ∧
    { s.releaseHeld w with points := s.points } = s

/-- RELEASE: the entries of a list in order, NOT_HOLDER where the port does not hold; ALL releases every point held, and each
point handed over raises CLAIM_GRANTED for the port at the head of its waiter list, in ascending point order (R42, R46, R47,
R81). -/
def Obligations.ReleaseFreesWhatThePortHolds : Prop :=
  (∀ (s : State) (p : Port) args, s.Due p (.release args) →
    (∀ ixs, args.selector = 0 → args.points ≠ [] → Names args.points ixs →
      ∃ t, exec (.release p args) s = .next t ∧
        Replied s t p .ok
          (listBody (State.takeList (fun s i => s.releasePoint p i) p s ixs).2) ∧
        { t with ports := s.ports } = (State.takeList (fun s i => s.releasePoint p i) p s ixs).1) ∧
    (args.selector = 1 → args.points = [] →
      ∃ t, exec (.release p args) s = .next t ∧ Replied s t p .ok (.all (s.heldCount (.port p))) ∧
        (∀ i, t.slot i = (s.slot i).map fun pt => if pt.heldBy (.port p) then pt.release else pt) ∧
        (∀ q, t.counts.get q = if q = p then s.counts.get q - s.heldCount (.port p) else s.counts.get q) ∧
        (∀ q, t.notices.get q = (s.notices.get q).takeAll t
          (s.grantsFor q fun pt => if pt.heldBy (.port p) then pt.waiting.head? else none)) ∧
        { t with points := s.points, counts := s.counts, notices := s.notices, ports := s.ports } = s) ∧
    (((∃ f ∈ args.points, 512 ≤ f.toNat) ∨ (args.selector = 0 ∧ args.points = []) ∨
        (args.selector = 1 ∧ args.points ≠ []) ∨ (args.selector ≠ 0 ∧ args.selector ≠ 1)) →
      OnlyReplies (.release p args) s p .badArg .empty)) ∧
  (∀ (effect : State → PointIx → State) p s, State.takeList effect p s [] = (s, [])) ∧
  (∀ (effect : State → PointIx → State) p s i ixs,
    State.takeList effect p s (i :: ixs) =
      if s.heldAt i (.port p) then
        ((State.takeList effect p (effect s i) ixs).1, .ok :: (State.takeList effect p (effect s i) ixs).2)
      else ((State.takeList effect p s ixs).1, .notHolder :: (State.takeList effect p s ixs).2)) ∧
  (∀ (s : State) w, s.heldCount w = (List.finRange 512).countP fun i => s.heldAt i w) ∧
  ∀ sts, listBody sts = .list (sts.countP fun st => st = .ok) sts

/-- RENEW sets the lease remaining back to the lease length at every named point the port holds, and nothing else (R43). -/
def Obligations.RenewRestartsLeases : Prop :=
  Code.renew.isConfig = false ∧ ∀ (s : State) (p : Port) args, s.Due p (.renew args) →
    (∀ ixs, args.selector = 0 → args.points ≠ [] → Names args.points ixs →
      ∃ t, exec (.renew p args) s = .next t ∧
        Replied s t p .ok
          (.list (ixs.countP fun i => s.heldAt i (.port p))
            (ixs.map fun i => if s.heldAt i (.port p) then Status.ok else .notHolder)) ∧
        (∀ i, i ∉ ixs → t.slot i = s.slot i) ∧
        (∀ i ∈ ixs, t.slot i = (s.slot i).map fun pt =>
          if pt.heldBy (.port p) then { pt with holder := pt.holder.restart } else pt) ∧
        { t with points := s.points, ports := s.ports } = s) ∧
    (args.selector = 1 → args.points = [] →
      ∃ t, exec (.renew p args) s = .next t ∧ Replied s t p .ok (.all (s.heldCount (.port p))) ∧
        (∀ i, t.slot i = (s.slot i).map fun pt =>
          if pt.heldBy (.port p) then { pt with holder := pt.holder.restart } else pt) ∧
        { t with points := s.points, ports := s.ports } = s) ∧
    (((∃ f ∈ args.points, 512 ≤ f.toNat) ∨ (args.selector = 0 ∧ args.points = []) ∨
        (args.selector = 1 ∧ args.points ≠ []) ∨ (args.selector ≠ 0 ∧ args.selector ≠ 1)) →
      OnlyReplies (.renew p args) s p .badArg .empty) ∧
    (∀ c : PortClaim, Holder.restart (.port c) =
      .port { c with lease := c.lease.map fun l => { length := l.length, remaining := l.length } }) ∧
    ∀ h : Holder, (∀ c, h ≠ .port c) → h.restart = h

/-- WITHDRAW removes the port's wait and leaves the order of the others (R44). -/
def Obligations.WithdrawRemovesTheWait : Prop :=
  Code.withdraw.isConfig = false ∧ ∀ (s : State) (p : Port) field, s.Due p (.withdraw field) →
    (512 ≤ field.toNat → OnlyReplies (.withdraw p field) s p .badArg .empty) ∧
    ∀ i : PointIx, field.toNat = i.val →
      ((∀ pt ∈ s.slot i, p ∉ pt.waiting) → OnlyReplies (.withdraw p field) s p .notWaiting .empty) ∧
      ∀ pt, s.slot i = some pt → p ∈ pt.waiting →
        ∃ t, exec (.withdraw p field) s = .next t ∧ Replied s t p .ok .empty ∧
          t.slot i = some { pt with waiters := pt.waiters.filter fun w => w.port ≠ p } ∧
          (∀ j, j ≠ i → t.slot j = s.slot j) ∧
          (∀ q, t.counts.get q = if q = p then s.counts.get q - 1 else s.counts.get q) ∧
          { t with points := s.points, counts := s.counts, ports := s.ports } = s

/-! ### Batches -/

/-- BATCH_OPEN makes an empty batch, or is refused STATE with the number of entries of the open one (R60). BATCH_DISCARD removes
the open batch and touches nothing else (R68). -/
def Obligations.BatchIsOpenedAndDiscarded : Prop :=
  (∀ (s : State) (p : Port), s.Due p .batchOpen →
     (∀ b, s.batches.get p = some b → OnlyReplies (.batchOpen p) s p .state (.entries b.length)) ∧
     (s.batches.get p = none → ∃ t, exec (.batchOpen p) s = .next t ∧ Replied s t p .ok .empty ∧
       (∀ q, t.batches.get q = if q = p then some [] else s.batches.get q) ∧
       { t with batches := s.batches, ports := s.ports } = s)) ∧
  ∀ (s : State) (p : Port), s.Due p .batchDiscard →
    (s.batches.get p = none → OnlyReplies (.batchDiscard p) s p .noBatch .empty) ∧
    (∀ b, s.batches.get p = some b → ∃ t, exec (.batchDiscard p) s = .next t ∧ Replied s t p .ok .empty ∧
      (∀ q, t.batches.get q = if q = p then none else s.batches.get q) ∧
      { t with batches := s.batches, ports := s.ports } = s)

/-- BATCH_PUT stages its entries in order, replacing in place or appending, or stages nothing (R61, R62). -/
def Obligations.BatchPutStagesInOrder : Prop :=
  (∀ (s : State) (p : Port) args, s.Due p (.batchPut args) →
    (s.batches.get p = none → OnlyReplies (.batchPut p args) s p .noBatch .empty) ∧
    ∀ b, s.batches.get p = some b →
      ((∃ a ∈ args, 512 ≤ a.point.toNat) → OnlyReplies (.batchPut p args) s p .badArg .empty) ∧
      ∀ es : List BatchEntry, args.map (fun a => (a.point.toNat, a.value)) = es.map (fun e => (e.point.val, e.value)) →
        (16 < (es.foldl Batch.put b).length → OnlyReplies (.batchPut p args) s p .batchFull (.entries b.length)) ∧
        ((es.foldl Batch.put b).length ≤ 16 → ∃ t, exec (.batchPut p args) s = .next t ∧
          Replied s t p .ok (.entries (es.foldl Batch.put b).length) ∧
          (∀ q, t.batches.get q = if q = p then some (es.foldl Batch.put b) else s.batches.get q) ∧
          { t with batches := s.batches, ports := s.ports } = s)) ∧
  ∀ (b : Batch) (e : BatchEntry),
    (b.put e).map BatchEntry.point =
      (if e.point ∈ b.map BatchEntry.point then b.map BatchEntry.point else b.map BatchEntry.point ++ [e.point]) ∧
    (∀ x ∈ b.put e, x.point = e.point → x = e) ∧ ∀ x, x.point ≠ e.point → (x ∈ b.put e ↔ x ∈ b)

/-- BATCH_COMMIT that finds a failing entry names the first one and applies nothing of the batch (R63, R64). -/
def Obligations.CommitRefusedAppliesNothing : Prop :=
  (∀ (s : State) (p : Port) release, s.Due p (.batchCommit release) →
    (s.batches.get p = none → OnlyReplies (.batchCommit p release) s p .noBatch .empty) ∧
    ∀ b before e after st, s.batches.get p = some b → b = before ++ e :: after →
      (∀ x ∈ before, s.commitCheck p x = none) → s.commitCheck p e = some st →
      OnlyReplies (.batchCommit p release) s p .batchRefused (.commitRefused (before.length + 1) e.point st)) ∧
  ∀ (s : State) (p : Port) (e : BatchEntry),
    (s.slot e.point = none → s.commitCheck p e = some .notDefined) ∧
    ∀ pt, s.slot e.point = some pt →
      (pt.heldBy (.port p) = false → s.commitCheck p e = some .notHolder) ∧
      (pt.heldBy (.port p) = true → s.commitCheck p e =
        if pt.defn.limitAction = .reject ∧ pt.defn.inRange (pt.defn.kind.num e.value) = false then some .outOfRange else none)

/-- BATCH_COMMIT whose entries all pass writes every point once in one event: each entry in order as a write with its causes,
lines and triggers (R65; several triggers are taken one at a time, log 9), then the releases that R66 names in ascending point
order, each with handover; and it closes the batch (R65 to R67, R81). -/
def Obligations.CommitWritesEveryEntry : Prop :=
  (∀ (s : State) (p : Port) release b, s.Due p (.batchCommit release) → s.batches.get p = some b → Batch.sound b →
    (∀ x ∈ b, s.commitCheck p x = none) →
    ∃ t, exec (.batchCommit p release) s = .next t ∧
      Replied s t p .ok (.committed b.length (s.clampMarks b) (s.commitReleases b release).length) ∧
      { t with ports := s.ports } =
        ((s.commitReleases b release).foldl (fun u i => u.releasePoint p i) (b.foldl State.commitEntry s)).setBatch p none ∧
      (∀ q, t.batches.get q = if q = p then none else s.batches.get q) ∧
      (∀ e ∈ b, ∀ pt, s.slot e.point = some pt →
        t.slot e.point = some
          (let after : Point :=
            { pt with value := pt.defn.fit (pt.defn.kind.num e.value), quality := .good, seq := pt.seq + 1, age := 0,
                      holder := pt.holder.restart }
           if release || pt.holder.isOnce then after.release else after)) ∧
      (∀ i, i ∉ b.map BatchEntry.point → t.slot i = s.slot i) ∧
      (∀ q, t.counts.get q = if q = p then s.counts.get q - (s.commitReleases b release).length else s.counts.get q) ∧
      { t with points := s.points, counts := s.counts, batches := s.batches, notices := s.notices, outputs := s.outputs,
               orders := s.orders, executor := s.executor, scanner := s.scanner, ports := s.ports } = s) ∧
  (∀ (s : State) (b : Batch) release i, i ∈ s.commitReleases b release ↔
    i ∈ b.map BatchEntry.point ∧ (release = true ∨ ∃ pt ∈ s.slot i, pt.holder.isOnce = true)) ∧
  (∀ (s : State) (b : Batch) release, (s.commitReleases b release).Pairwise (· < ·)) ∧
  (∀ (s : State) (e : BatchEntry) pt, s.slot e.point = some pt →
    s.commitEntry e = s.storeAndRaise e.point pt (pt.defn.fit (pt.defn.kind.num e.value)) .good
      (!pt.defn.inRange (pt.defn.kind.num e.value))) ∧
  ∀ (s : State) (b : Batch) k, b.length ≤ 16 → ((s.clampMarks b).getLsbD k = true ↔
    ∃ e, b[k]? = some e ∧ ∃ pt ∈ s.slot e.point, pt.defn.inRange (pt.defn.kind.num e.value) = false)

/-! ### Notices -/

/-- SUBSCRIBE starts a subscription from the point's current value and raises SUBSCRIBED; a deadband is stored as given at a U32
or S32 point and not at a BOOL point (R72). UNSUBSCRIBE removes the subscription and nothing else (R73). -/
def Obligations.SubscriptionsStartAndEnd : Prop :=
  (∀ (s : State) (p : Port) args, s.Due p (.subscribe args) →
     ((512 ≤ args.point.toNat ∨ 2 < args.condition.toNat ∨ (args.condition = 2 ∧ args.deadband = 0)) →
       OnlyReplies (.subscribe p args) s p .badArg .empty) ∧
     ∀ (i : PointIx) (c : Condition), args.point.toNat = i.val →
       ((args.condition = 0 ∧ c = .write) ∨ (args.condition = 1 ∧ c = .change) ∨
         (args.condition = 2 ∧ args.deadband ≠ 0 ∧ c = .deadband (some args.deadband))) →
       (s.slot i = none → OnlyReplies (.subscribe p args) s p .notDefined .empty) ∧
       ∀ pt, s.slot i = some pt → ∃ t, exec (.subscribe p args) s = .next t ∧
         Replied s t p .ok (.subscribed pt.value pt.seq pt.quality) ∧
         (∀ q, t.notices.get q =
           if q = p then
             NoticeUnit.takeAll
               { s.notices.get q with
                 subs := (s.notices.get q).subs.set i.val
                   (some { condition := c.storedAt pt.defn.kind, reference := pt.value }) }
               t [(.point i, .subscribed)]
           else s.notices.get q) ∧
         { t with notices := s.notices, ports := s.ports } = s) ∧
  (∀ (s : State) (p : Port) field, s.Due p (.unsubscribe field) →
     (512 ≤ field.toNat → OnlyReplies (.unsubscribe p field) s p .badArg .empty) ∧
     ∀ i : PointIx, field.toNat = i.val →
       (s.sub p i = none → OnlyReplies (.unsubscribe p field) s p .state .empty) ∧
       (s.sub p i ≠ none → ∃ t, exec (.unsubscribe p field) s = .next t ∧ Replied s t p .ok .empty ∧
         (∀ q, t.notices.get q =
           if q = p then { s.notices.get q with subs := (s.notices.get q).subs.set i.val none } else s.notices.get q) ∧
         { t with notices := s.notices, ports := s.ports } = s)) ∧
  (∀ c : Condition, c.storedAt .u32 = c ∧ c.storedAt .s32 = c) ∧ (∀ least, (Condition.deadband least).storedAt .bool = .deadband none) ∧
  Condition.write.storedAt .bool = .write ∧ Condition.change.storedAt .bool = .change

/-- A cause raised for a port and a subject merges into the subject's notice, makes a notice at the tail, or is owed when the
queue is full (R83, R84, R85). The state it attaches is value, quality and sequence of a point, 0, UNSET and 0 while it is
undefined; remaining count, state and missed count of an order, 0, EMPTY and 0 of an EMPTY slot (R79, R80, R82, R88, R139).
Several causes are taken one after the other (R81). -/
def Obligations.RaiseMergesQueuesOrOwes : Prop :=
  (∀ (s : State) (p : Port) (subject : Subject) (c : Cause),
     let u := s.notices.get p
     let u' := (s.raise p subject c).notices.get p
     (∀ before n after, u.queue = before ++ n :: after → n.subject = subject →
       (∀ m ∈ before ++ after, m.subject ≠ subject) →
       u' = { u with queue := before ++
         { n with causes := CauseSet.add n.causes c, state := s.subjectState subject,
                  merged := if n.merged < 255 then n.merged + 1 else n.merged } :: after }) ∧
     (subject ∉ u.queued → u.queue.length < 32 →
       u' = { u with queue := u.queue ++
         [{ subject := subject, causes := CauseSet.add CauseSet.empty c, state := s.subjectState subject, merged := 0 }] }) ∧
     (subject ∉ u.queued → 32 ≤ u.queue.length → u'.queue = u.queue ∧ u'.subs = u.subs ∧
       ∀ x k, (∃ o ∈ u'.owed, o.subject = x ∧ CauseSet.has o.causes k = true) ↔
         (x = subject ∧ k = c) ∨ ∃ o ∈ u.owed, o.subject = x ∧ CauseSet.has o.causes k = true) ∧
     (∀ q, q ≠ p → (s.raise p subject c).notices.get q = s.notices.get q) ∧
     { s.raise p subject c with notices := s.notices } = s ∧
     (∀ (cs : CauseSet) k, CauseSet.has (CauseSet.add cs c) k = true ↔ CauseSet.has cs k = true ∨ k = c) ∧
     ∀ k, CauseSet.has CauseSet.empty k = false) ∧
  (∀ s : State,
     (∀ i pt, s.slot i = some pt → s.subjectState (.point i) = .point pt.value pt.quality pt.seq) ∧
     (∀ i, s.slot i = none → s.subjectState (.point i) = .point 0 .unset 0) ∧
     (∀ n o, s.order n = some o → s.subjectState (.order n) = .order o.remaining (some o.phase) o.missed) ∧
     ∀ n, s.order n = none → s.subjectState (.order n) = .order 0 none 0) ∧
  (∀ (u : NoticeUnit) (t : State), u.takeAll t [] = u ∧
    (∀ xs ys, u.takeAll t (xs ++ ys) = (u.takeAll t xs).takeAll t ys) ∧
    ∀ p subject c, u.takeAll t [(subject, c)] = ((t.setNotices p u).raise p subject c).notices.get p) ∧
  ∀ (s : State) (rs : List Raise),
    (∀ q, (s.raiseAll rs).notices.get q =
      (s.notices.get q).takeAll s ((rs.filter fun r => r.port = q).map fun r => (r.subject, r.cause))) ∧
    { s.raiseAll rs with notices := s.notices } = s

/-- FETCH removes up to the asked number of notices from the head of the queue and then drains the owed map from its front while
the queue has room (R85, R87 to R89). -/
def Obligations.FetchRemovesAndDrains : Prop :=
  ∀ (s : State) (p : Port) (count : Byte), s.Due p (.fetch count) →
    ((count = 0 ∨ 4 < count.toNat) → OnlyReplies (.fetch p count) s p .badArg .empty) ∧
    (1 ≤ count.toNat → count.toNat ≤ 4 → ∃ t, exec (.fetch p count) s = .next t ∧
      let u := s.notices.get p
      let kept := u.queue.drop count.toNat
      let room := 32 - kept.length
      Replied s t p .ok (.notices (u.queue.take count.toNat)) ∧
      t.notices.get p =
        { subs := u.subs
          queue := kept ++ (u.owed.take room).map fun o =>
            { subject := o.subject, causes := CauseSet.add o.causes .resent, state := s.subjectState o.subject, merged := 0 }
          owed := u.owed.drop room } ∧
      (∀ q, q ≠ p → t.notices.get q = s.notices.get q) ∧
      { t with notices := s.notices, ports := s.ports } = s)

/-! ### Output lines -/

/-- A line follows a GOOD or SUSPECT point, inverted if asked, and drives its safe level in every other case (R104). OUTPUT_BIND
replaces the line's binding, re-evaluates the line, and reports the binding it replaced (R103). -/
def Obligations.OutputLinesAreBoundAndDriven : Prop :=
  (∀ (s : State) (o : Output),
     (∀ i pt, o.point = some i → s.slot i = some pt → (pt.quality = .good ∨ pt.quality = .suspect) →
       s.lineLevel o = if (pt.value ≠ 0 ∧ o.invert = false) ∨ (pt.value = 0 ∧ o.invert = true) then .high else .low) ∧
     (o.point = none → s.lineLevel o = o.safe) ∧
     (∀ i, o.point = some i → s.slot i = none → s.lineLevel o = o.safe) ∧
     ∀ i pt, o.point = some i → s.slot i = some pt → (pt.quality = .unset ∨ pt.quality = .stale) → s.lineLevel o = o.safe) ∧
  Code.outputBind.isConfig = true ∧ ∀ (s : State) (p : Port) args, s.Due p (.outputBind args) →
    ((7 < args.line.toNat ∨ (511 < args.point.toNat ∧ args.point ≠ 0xFFFF) ∨ 1 < args.safe.toNat) →
      OnlyReplies (.outputBind p args) s p .badArg .empty) ∧
    ∀ (n : Fin 8) (point : Option PointIx) (safe : Level), args.line.toNat = n.val →
      (if args.point = 0xFFFF then point = none else ∃ i, point = some i ∧ args.point.toNat = i.val) →
      ((args.safe = 0 ∧ safe = .low) ∨ (args.safe = 1 ∧ safe = .high)) →
      ∃ t, exec (.outputBind p args) s = .next t ∧
        t.outputs[n.val] = { point := point, safe := safe, invert := args.invert, level := t.lineLevel t.outputs[n.val] } ∧
        Replied s t p .ok
          (.output s.outputs[n.val].point s.outputs[n.val].safe s.outputs[n.val].invert t.outputs[n.val].level) ∧
        (∀ m : Fin 8, m ≠ n → t.outputs[m.val] = s.outputs[m.val]) ∧
        { t with outputs := s.outputs, ports := s.ports } = s

/-! ### Responses -/

/-- The codes, response bodies and records of Tables 10.4-1, 10.4-2, 10.5-1 and 10.5-2, field by field with their widths, most
significant byte first (R193, R198, R199; the fields of an EMPTY record and of an unbound line are log 16); an outbound frame is
its body and 8 bytes more (R194), and a response takes the place of the oldest ACCEPTED entry, the one whose request the port
presents, and keeps its SEQ (R177, R194). -/
def Obligations.ResponsesAreLaidOut : Prop :=
  (([Status.ok, .okClamped, .waiting, .idle, .badLength, .badCheck, .badCode, .noRight, .badArg, .notDefined, .held, .notHolder,
     .notWaiting, .outOfRange, .limit, .busy, .state, .noBatch, .batchFull, .batchRefused, .tableReset].map statusCode =
    [0x00, 0x01, 0x02, 0x03, 0x10, 0x11, 0x12, 0x13, 0x20, 0x21, 0x22, 0x23,
     0x24, 0x25, 0x26, 0x27, 0x28, 0x30, 0x31, 0x32, 0x40]) ∧
   ([Port.a, .b, .c, .d].map portCode = [0x01, 0x02, 0x03, 0x04] ∧ holderCode none = 0x00 ∧
     (∀ p, holderCode (some (.port p)) = portCode p) ∧ holderCode (some .scanner) = 0x05 ∧
     (∀ n : OrderIx, (holderCode (some (.order n))).toNat = 0x20 + n.val) ∧
     [Quality.unset, .good, .suspect, .stale].map qualityCode = [0x00, 0x01, 0x02, 0x03] ∧
     [none, some OrderPhase.disarmed, some .armed, some .retired].map orderStateCode = [0x00, 0x01, 0x02, 0x03] ∧
     [RunFlag.none, .running, .stopping].map runFlagCode = [0x00, 0x01, 0x02] ∧
     [none, some ScanPhase.defined, some .armed, some .converting].map scanStateCode = [0x00, 0x01, 0x02, 0x03] ∧
     [ScanMode.single, .continuous].map scanModeCode = [0x00, 0x01] ∧
     [TimerMode.oneShot, .periodic].map timerModeCode = [0x00, 0x01] ∧
     [EdgeSetting.off, .rise, .fall, .both].map edgeCode = [0x00, 0x01, 0x02, 0x03] ∧
     [Level.low, .high].map levelCode = [0x00, 0x01] ∧
     ∀ v : PortSet, (portSetCode v).toNat =
       (if v.a then 1 else 0) + (if v.b then 2 else 0) + (if v.c then 4 else 0) + (if v.d then 8 else 0)) ∧
   ([Cause.subscribed, .written, .changed, .quality, .clamped, .undefined, .claimGranted, .claimLapsed, .waitExpired,
     .orderRetired, .orderFault, .resent].map Cause.number = List.range 12 ∧
    (∀ (cs : CauseSet) c, CauseSet.has cs c = cs.getLsbD c.number) ∧
    ∀ n : Notice, noticeBytes n =
     fields [(2, match n.subject with
                 | .point i => i.val
                 | .order m => 0x0200 + m.val),
             (2, n.causes.toNat)] ++
       (match n.state with
        | .point value quality seq => fields [(4, value.toNat), (1, (qualityCode quality).toNat), (2, seq.toNat)]
        | .order remaining phase missed => fields [(4, remaining), (1, (orderStateCode phase).toNat), (2, missed)]) ++
       fields [(1, n.merged)]) ∧
   (∀ t : Trigger, triggerBytes (triggerArgs t) = fields
     (match t with
      | .request => [(1, 0), (2, 0)]
      | .line n => [(1, 1), (2, n.val)]
      | .timer n => [(1, 2), (2, n.val)]
      | .chain n => [(1, 3), (2, n.val)]
      | .scanEnd => [(1, 4), (2, 0)]
      | .point i => [(1, 5), (2, i.val)])) ∧
   (∀ d : OrderDef, orderDefBytes d = triggerBytes (triggerArgs d.trigger) ++
     fields [(2, d.source.val), (1, d.runLength), (2, d.dest.val)] ++
     fields
       (match d.step with
        | .fixed => [(1, 0), (1, 0)]
        | .step => [(1, 1), (1, 0)]
        | .stepWrap w => [(1, 2), (1, w)]) ++
     fields
       (match d.transform with
        | .copy => [(1, 0), (2, 0), (4, 0), (4, 0)]
        | .scale gain offset => [(1, 1), (2, gain.toNat), (4, offset.toNat), (4, 0)]
        | .invert => [(1, 2), (2, 0), (4, 0), (4, 0)]
        | .compare threshold => [(1, 3), (2, 0), (4, 0), (4, threshold.toNat)]) ++
     fields [(2, d.runs), (1, match d.chain with
                              | none => 0xFF
                              | some n => n.val)]) ∧
   (∀ (o : Order) position flag, orderLiveBytes o position flag = fields
     [(2, o.remaining), (1, o.pending), (2, o.missed), (4, o.runsDone.toNat), (2, o.faults), (2, o.base.val), (1, position),
      (1, (runFlagCode flag).toNat)]) ∧
   (bodyBytes .empty = [] ∧
    (∀ rs, bodyBytes (.read rs) = rs.flatMap fun r =>
      fields [(1, (statusCode r.status).toNat), (4, r.value.toNat), (2, r.seq.toNat),
        (1, (qualityCode r.quality).toNat * 64 + (holderCode r.holder).toNat)]) ∧
    (∀ rs, bodyBytes (.write rs) = rs.flatMap fun r =>
      fields [(1, (statusCode r.status).toNat), (4, r.value.toNat), (2, r.seq.toNat)]) ∧
    (∀ i w position, bodyBytes (.claim i w position) = fields [(2, i.val), (1, (holderCode w).toNat), (1, position)]) ∧
    (∀ n sts, bodyBytes (.list n sts) = fields ((1, 0) :: (1, n) :: sts.map fun st => (1, (statusCode st).toNat))) ∧
    (∀ n, bodyBytes (.all n) = fields [(1, 1), (1, n)] ∧ bodyBytes (.entries n) = fields [(1, n)]) ∧
    (∀ written marks released, bodyBytes (.committed written marks released) =
      fields [(1, written), (2, marks.toNat), (1, released)]) ∧
    (∀ position i cause, bodyBytes (.commitRefused position i cause) =
      fields [(1, position), (2, i.val), (1, (statusCode cause).toNat)]) ∧
    (∀ value seq quality, bodyBytes (.subscribed value seq quality) =
      fields [(4, value.toNat), (2, seq.toNat), (1, (qualityCode quality).toNat)]) ∧
    (∀ ns, bodyBytes (.notices ns) = fields [(1, ns.length)] ++ ns.flatMap noticeBytes) ∧
    (∀ i w, bodyBytes (.orderArm i w) = fields [(2, i.val), (1, (holderCode w).toNat)]) ∧
    (∀ pending missed flag, bodyBytes (.orderFire pending missed flag) =
      fields [(1, pending), (2, missed), (1, (runFlagCode flag).toNat)]) ∧
    (∀ (n : OrderIx) (o : Order) position flag, bodyBytes (.order n (some o) position flag) =
      fields [(1, n.val), (1, (orderStateCode (some o.phase)).toNat), (1, (portCode o.defn.owner).toNat)] ++
        orderDefBytes o.defn ++ orderLiveBytes o position flag) ∧
    (∀ (n : OrderIx) position flag, bodyBytes (.order n none position flag) =
      fields [(1, n.val), (1, 0), (1, 0), (23, 0), (1, 0xFF), (15, 0)]) ∧
    (∀ i k w, bodyBytes (.scanArm i k w) = fields [(2, i.val), (1, k), (1, (holderCode w).toNat)]) ∧
    (∀ phase pendingPass missed, bodyBytes (.scanStart phase pendingPass missed) =
      fields [(1, (scanStateCode (some phase)).toNat), (1, if pendingPass then 1 else 0), (2, missed)]) ∧
    (∀ sc : Scanner, bodyBytes (.scanner (some sc)) =
      fields [(1, (scanStateCode (some sc.phase)).toNat), (1, (portCode sc.owner).toNat), (1, (scanModeCode sc.mode).toNat)] ++
        triggerBytes (triggerArgs sc.trigger) ++
        fields [(1, sc.entries.length), (1, sc.current), (1, if sc.pendingPass then 1 else 0), (4, sc.passCount.toNat),
          (2, sc.missed)]) ∧
    bodyBytes (.scanner none) = fields [(15, 0)] ∧
    (∀ period running, bodyBytes (.tick period running) = fields [(2, period), (1, if running then 1 else 0)]) ∧
    (∀ period mode running remaining, bodyBytes (.timer period mode running remaining) =
      fields [(2, period), (1, (timerModeCode mode).toNat), (1, if running then 1 else 0), (2, remaining)]) ∧
    (∀ running remaining, bodyBytes (.timerStop running remaining) = fields [(1, if running then 1 else 0), (2, remaining)]) ∧
    (∀ edge settled, bodyBytes (.line edge settled) = fields [(1, (edgeCode edge).toNat), (1, (levelCode settled).toNat)]) ∧
    (∀ (point : Option PointIx) safe invert level, bodyBytes (.output point safe invert level) =
      fields [(2, match point with
                  | none => 0xFFFF
                  | some i => i.val),
              (1, (levelCode safe).toNat), (1, if invert then 1 else 0), (1, (levelCode level).toNat)]) ∧
    (∀ v, bodyBytes (.config v) = fields [(1, (portSetCode v).toNat)]) ∧
    (∀ r n, bodyBytes (.attn r n) = fields [(1, if r then 1 else 0), (1, if n then 1 else 0)]) ∧
    ∀ own v r n level behind, bodyBytes (.status own v r n level behind) =
      fields [(1, (portCode own).toNat), (1, (portSetCode v).toNat), (1, if r then 1 else 0), (1, if n then 1 else 0),
        (1, (levelCode level).toNat), (1, behind)]) ∧
   (∀ (s : State) (p : Port) seq st body, (outboundFrame s p seq st body).length = (bodyBytes body).length + 8) ∧
   ∀ (before after : List Entry) seq r st body, (∀ e ∈ before, Entry.isAnswered e = true) →
     answerOldest st body (before ++ .accepted seq r :: after) = before ++ .answered seq st body :: after) ∧
  (∀ (before after : List Entry) seq r, (∀ e ∈ before, Entry.isAnswered e = true) →
    oldestAccepted (before ++ .accepted seq r :: after) = some r) ∧
  (∀ window : List Entry, (∀ e ∈ window, Entry.isAnswered e = true) → oldestAccepted window = none) ∧
  ∀ (s : State) (p : Port), s.presented p = oldestAccepted (s.ports.get p).window

/-! ### Orders -/

/-- ORDER_DEFINE accepts exactly what passes checks 2 to 5 of R113, with the codes and number ranges of Table 10.1-1 and the
wrap of STEP_WRAP within the table, and stores it as a DISARMED order with fresh counts (R114). ORDER_CLEAR empties a slot that
is not ARMED and not STOPPING (R117). ORDER_QUERY reports the record, with run flag and run position as the executor holds them
(R119, log 14), and changes nothing (R118). -/
def Obligations.OrderDefineClearAndQuery : Prop :=
  ((∀ (s : State) (p : Port) num args, s.Due p (.orderDefine num args) →
     ((31 < num.toNat ∨ orderDef? p args = none) → OnlyReplies (.orderDefine p num args) s p .badArg .empty) ∧
     ∀ (n : OrderIx) d, num.toNat = n.val → orderDef? p args = some d →
       (s.armed n = true → OnlyReplies (.orderDefine p num args) s p .state .empty) ∧
       (s.armed n = false → s.runFlag n = .stopping → OnlyReplies (.orderDefine p num args) s p .busy .empty) ∧
       (s.armed n = false → s.runFlag n ≠ .stopping → ∃ t, exec (.orderDefine p num args) s = .next t ∧
         Replied s t p .ok .empty ∧
         t.order n = some { defn := d, phase := .disarmed, remaining := d.runs, pending := 0, missed := 0, runsDone := 0,
                            faults := 0, base := d.source } ∧
         (∀ m, m ≠ n → t.order m = s.order m) ∧ { t with orders := s.orders, ports := s.ports } = s)) ∧
   ∀ (p : Port) (args : OrderArgs) (d : OrderDef), orderDef? p args = some d ↔
     d.owner = p ∧ CarriesTrigger args.trigger d.trigger ∧ d.source.val = args.source.toNat ∧
       d.runLength = args.runLength.toNat ∧ d.dest.val = args.dest.toNat ∧
       (match d.step with
        | .fixed => args.step = 0x00
        | .step => args.step = 0x01
        | .stepWrap w => args.step = 0x02 ∧ w = args.wrap.toNat ∧ 1 ≤ w ∧ w ≤ 32 ∧ d.source.val + w * d.runLength - 1 ≤ 511) ∧
       (match d.transform with
        | .copy => args.transform = 0x00
        | .scale gain offset => args.transform = 0x01 ∧ gain = args.gain ∧ offset = args.offset
        | .invert => args.transform = 0x02
        | .compare threshold => args.transform = 0x03 ∧ threshold = args.threshold) ∧
       d.runs = args.runs.toNat ∧
       (match d.chain with
        | none => args.chain = 0xFF
        | some n => args.chain.toNat = n.val) ∧
       1 ≤ d.runLength ∧ d.runLength ≤ 16 ∧ d.source.val + d.runLength - 1 ≤ 511 ∧ d.dest.val + d.runLength - 1 ≤ 511) ∧
  (∀ (s : State) (p : Port) num, s.Due p (.orderClear num) →
    (31 < num.toNat → OnlyReplies (.orderClear p num) s p .badArg .empty) ∧
    ∀ n : OrderIx, num.toNat = n.val →
      (s.armed n = true → OnlyReplies (.orderClear p num) s p .state .empty) ∧
      (s.armed n = false → s.runFlag n = .stopping → OnlyReplies (.orderClear p num) s p .busy .empty) ∧
      (s.armed n = false → s.runFlag n ≠ .stopping → ∃ t, exec (.orderClear p num) s = .next t ∧ Replied s t p .ok .empty ∧
        t.order n = none ∧ (∀ m, m ≠ n → t.order m = s.order m) ∧ { t with orders := s.orders, ports := s.ports } = s)) ∧
  (∀ (s : State) (p : Port) num, s.Due p (.orderQuery num) →
     (31 < num.toNat → OnlyReplies (.orderQuery p num) s p .badArg .empty) ∧
     ∀ n : OrderIx, num.toNat = n.val →
       OnlyReplies (.orderQuery p num) s p .ok (.order n (s.order n) (s.runPosition n) (s.runFlag n))) ∧
  ∀ (s : State) (n : OrderIx),
    (∀ r, s.executor = some r → r.order = n →
      s.runFlag n = (if r.stopping then .stopping else .running) ∧ s.runPosition n = r.position) ∧
    ((∀ r, s.executor = some r → r.order ≠ n) → s.runFlag n = .none ∧ s.runPosition n = 0)

/-- ORDER_ARM claims every destination together and arms the order, or is refused with the first failing point (R48, R115). -/
def Obligations.OrderArmClaimsEveryDestination : Prop :=
  (∀ d : OrderDef, d.dest.val + d.runLength ≤ 512 → d.dests.map Fin.val = List.range' d.dest.val d.runLength) ∧
  ∀ (s : State) (p : Port) num, s.Due p (.orderArm num) →
    (31 < num.toNat → OnlyReplies (.orderArm p num) s p .badArg .empty) ∧
    ∀ n : OrderIx, num.toNat = n.val →
      ((s.order n = none ∨ s.armed n = true) → OnlyReplies (.orderArm p num) s p .state .empty) ∧
      ∀ o, s.order n = some o → s.armed n = false →
        (s.runFlag n = .stopping → OnlyReplies (.orderArm p num) s p .busy .empty) ∧
        (s.runFlag n ≠ .stopping → ∀ before i after, o.defn.dests = before ++ i :: after →
          (∀ j ∈ before, s.FreeForInternal j) →
          (s.slot i = none → OnlyReplies (.orderArm p num) s p .notDefined (.orderArm i none)) ∧
          ∀ pt, s.slot i = some pt →
            (pt.defn.rights.internal = false → OnlyReplies (.orderArm p num) s p .noRight (.orderArm i none)) ∧
            ∀ w, pt.defn.rights.internal = true → pt.holder.party = some w →
              OnlyReplies (.orderArm p num) s p .held (.orderArm i (some w))) ∧
        (s.runFlag n ≠ .stopping → (∀ i ∈ o.defn.dests, s.FreeForInternal i) →
          ∃ t, exec (.orderArm p num) s = .next t ∧ Replied s t p .ok .empty ∧
            t.order n = some { o with phase := .armed, remaining := o.defn.runs, pending := 0, missed := 0, base := o.defn.source } ∧
            (∀ m, m ≠ n → t.order m = s.order m) ∧
            (∀ i ∈ o.defn.dests, t.slot i = (s.slot i).map fun pt => { pt with holder := .order n, waiters := [] }) ∧
            (∀ i, i ∉ o.defn.dests → t.slot i = s.slot i) ∧
            { t with points := s.points, orders := s.orders, ports := s.ports } = s)

/-- ORDER_DISARM of an ARMED order discards its triggers, releases its points with handover, CLAIM_GRANTED for the head waiter
of each in ascending point order, and stops its run (R46, R47, R49, R81, R116, R135). -/
def Obligations.OrderDisarmReleasesItsPoints : Prop :=
  ∀ (s : State) (p : Port) num, s.Due p (.orderDisarm num) →
    (31 < num.toNat → OnlyReplies (.orderDisarm p num) s p .badArg .empty) ∧
    ∀ n : OrderIx, num.toNat = n.val →
      (s.order n = none → OnlyReplies (.orderDisarm p num) s p .state .empty) ∧
      ∀ o, s.order n = some o →
        (o.phase = .disarmed → OnlyReplies (.orderDisarm p num) s p .ok .empty) ∧
        (o.phase = .retired → ∃ t, exec (.orderDisarm p num) s = .next t ∧ Replied s t p .ok .empty ∧
          t.order n = some { o with phase := .disarmed } ∧ (∀ m, m ≠ n → t.order m = s.order m) ∧
          { t with orders := s.orders, ports := s.ports } = s) ∧
        (o.phase = .armed → ∃ t, exec (.orderDisarm p num) s = .next t ∧ Replied s t p .ok .empty ∧
          t.order n = some { o with phase := .disarmed, pending := 0 } ∧ (∀ m, m ≠ n → t.order m = s.order m) ∧
          t.executor = (s.executor.map fun r => if r.order = n then { r with stopping := true } else r) ∧
          (∀ i, t.slot i = (s.slot i).map fun pt => if pt.heldBy (.order n) then pt.release else pt) ∧
          (∀ q, t.notices.get q = (s.notices.get q).takeAll t
            (s.grantsFor q fun pt => if pt.heldBy (.order n) then pt.waiting.head? else none)) ∧
          { t with points := s.points, orders := s.orders, executor := s.executor, notices := s.notices,
                   ports := s.ports } = s)

/-- A trigger at an ARMED order: pending rises to at most 3, else missed counts it (R120); a free executor starts the
lowest-numbered ready order, which is ARMED with pending above 0 (R123); the scanner starts a pass, holds one, or counts it
missed (R145); the router reaches every consumer that selects the source (R167). ORDER_FIRE delivers one trigger to an ARMED
order and reports its counts as they stand after (R121). -/
def Obligations.TriggersReachTheirConsumers : Prop :=
  (∀ o : Order, o.ready = true ↔ o.phase = .armed ∧ 0 < o.pending) ∧
  ((∀ o : Order, (o.pending < 3 → o.accept = { o with pending := o.pending + 1 }) ∧
     (3 ≤ o.pending → o.accept = { o with missed := if o.missed < 65535 then o.missed + 1 else o.missed })) ∧
   (∀ s : State,
     (∀ r, s.executor = some r → s.startRun = s) ∧
     (s.executor = none → (∀ m, ∀ o ∈ s.order m, o.ready = false) → s.startRun = s) ∧
     ∀ n o, s.executor = none → s.order n = some o → o.ready = true → (∀ m, m < n → ∀ x ∈ s.order m, x.ready = false) →
       s.startRun.executor = some { order := n, position := 0, stopping := false } ∧
       s.startRun.order n = some { o with pending := o.pending - 1 } ∧ (∀ m, m ≠ n → s.startRun.order m = s.order m) ∧
       { s.startRun with orders := s.orders, executor := s.executor } = s) ∧
   (∀ sc : Scanner,
     (sc.phase = .armed → sc.accept = { sc with phase := .converting, current := 0 }) ∧
     (sc.phase = .converting → sc.mode = .single → sc.pendingPass = false → sc.accept = { sc with pendingPass := true }) ∧
     (sc.phase = .converting → sc.mode = .single → sc.pendingPass = true →
       sc.accept = { sc with missed := if sc.missed < 65535 then sc.missed + 1 else sc.missed }) ∧
     (sc.phase = .converting → sc.mode = .continuous → sc.accept = sc) ∧ (sc.phase = .defined → sc.accept = sc)) ∧
   (∀ (s : State) (tr : Trigger), ∃ t : State, s.deliver tr = t.startRun ∧
      (∀ n, t.order n = (s.order n).map fun o => if o.defn.trigger = tr ∧ o.phase = .armed then o.accept else o) ∧
      t.scanner = (s.scanner.map fun sc => if sc.trigger = tr then sc.accept else sc) ∧
      { t with orders := s.orders, scanner := s.scanner } = s) ∧
   ∀ (s : State) (tr : Trigger), ∃ t : State, s.deliverToOrders tr = t.startRun ∧
     (∀ n, t.order n = (s.order n).map fun o => if o.defn.trigger = tr ∧ o.phase = .armed then o.accept else o) ∧
     { t with orders := s.orders } = s) ∧
  ∀ (s : State) (p : Port) num, s.Due p (.orderFire num) →
    (31 < num.toNat → OnlyReplies (.orderFire p num) s p .badArg .empty) ∧
    ∀ n : OrderIx, num.toNat = n.val →
      (s.armed n = false → OnlyReplies (.orderFire p num) s p .state .empty) ∧
      ∀ o, s.order n = some o → o.phase = .armed → ∃ t o', exec (.orderFire p num) s = .next t ∧
        { t with ports := s.ports } = (s.setOrder n (some o.accept)).startRun ∧ t.order n = some o' ∧
        Replied s t p .ok (.orderFire o'.pending o'.missed (t.runFlag n))

/-- The four transforms, exact and without wrap (R127). -/
def Obligations.TransformArithmetic : Prop :=
  (∀ k x, Transform.copy.result k x = x) ∧
    (∀ gain offset k x, (Transform.scale gain offset).result k x = (x * gain.toInt).tdiv 256 + offset.toInt) ∧
    (∀ k x, Transform.invert.result k x = if x = 0 then 1 else 0) ∧
    (∀ threshold k x, (Transform.compare threshold).result k x = if k.num threshold ≤ x then 1 else 0) ∧
    Kind.u32.num 0xFFFFFF00 = 4294967040 ∧ Kind.s32.num 0xFFFFFF00 = -256 ∧
    (∀ (threshold : Word) (v : Word), v = 0 ∨ v = 1 →
      (Transform.compare threshold).result .bool (Kind.bool.num v) =
        if 2 ≤ threshold.toNat then 0 else if threshold = 1 then Kind.bool.num v else 1) ∧
    (∀ x, (Transform.scale 256 0).result .u32 x = x) ∧ (Transform.scale 128 0).result .s32 (-3) = -1 ∧
    (Transform.scale (-512) 1000).result .s32 300 = 400

/-- One copy of a run through the steps of R125: holder, source, transform, limits. ORDER_COPY before the last copy of a run:
the outcome is applied, a fault is counted and reported, and the next copy is presented; a stopped run ends uncounted at its
refused copy (R125, R128, R129, R135). -/
def Obligations.OrderCopyTakesItsSteps : Prop :=
  (∀ n, countUp n = if n < 65535 then n + 1 else n) ∧
  ((∀ (i : PointIx) (k : Nat), i.val + k < 512 → (PointIx.plus i k).val = i.val + k) ∧
   ∀ (s : State) (n : OrderIx) (o : Order) (k : Nat),
     let dest := PointIx.plus o.defn.dest k
     let source := PointIx.plus o.base k
     (s.heldAt dest (.order n) = false → s.copyOutcome n o k = .refused) ∧
     ∀ pt, s.slot dest = some pt → pt.heldBy (.order n) = true →
       (s.slot source = none → s.copyOutcome n o k = .fault) ∧
       ∀ src, s.slot source = some src →
         (src.quality = .unset → s.copyOutcome n o k = .fault) ∧
         (src.quality ≠ .unset →
           let x := o.defn.transform.result src.defn.kind (src.defn.kind.num src.value)
           s.copyOutcome n o k =
             if pt.defn.rejects x then .fault
             else .written dest pt (pt.defn.fit x) (if src.quality = .good then .good else .suspect) (!pt.defn.inRange x))) ∧
  ∀ (s : State) (r : Run) (o : Order), s.held = false → s.executor = some r → s.order r.order = some o →
    (r.stopping = true → s.heldAt (PointIx.plus o.defn.dest r.position) (.order r.order) = false →
      ∃ t, exec .orderCopy s = .next t ∧ Quiet s t ∧
        { t with ports := s.ports } = State.startRun { s with executor := none }) ∧
    (r.stopping = false → r.position + 1 < o.defn.runLength →
      let outcome := s.copyOutcome r.order o r.position
      let w := s.applyCopy outcome
      ∃ t, exec .orderCopy s = .next t ∧ Quiet s t ∧ t.executor = some { r with position := r.position + 1 } ∧
        (∀ m, t.order m =
          if m = r.order ∧ outcome = .fault then (w.order m).map fun x => { x with faults := countUp x.faults } else w.order m) ∧
        (∀ q, t.notices.get q = (w.notices.get q).takeAll t
          (raisedFor q (s.copyRaises outcome ++
            if outcome = .fault then [⟨o.defn.owner, .order r.order, .orderFault⟩] else []))) ∧
        { t with executor := w.executor, orders := w.orders, notices := w.notices, ports := w.ports } = w) ∧
    (s.applyCopy .refused = s ∧ s.applyCopy .fault = s ∧ s.copyRaises .refused = [] ∧ s.copyRaises .fault = []) ∧
    ∀ i pt v q clamped, s.applyCopy (.written i pt v q clamped) = s.store i pt v q ∧
      s.copyRaises (.written i pt v q clamped) = s.writeRaises i pt v q clamped

/-- The source base after a run (R132). ORDER_COPY at the last copy of a run: the run is counted, the source base steps,
remaining falls, the order retires at 0 and releases its points, the chain line is pulsed, and the executor chooses again, in
that order (R131, R133, R134, R139). The causes stand in the order of R81 as log 15 reads it (DEDUCED): CLAIM_GRANTED of the
handovers in ascending point order (R46, R47, R49), then those of the write, then ORDER_FAULT and ORDER_RETIRED. -/
def Obligations.RunEndsInOrder : Prop :=
  (∀ o : Order,
     (o.defn.step = .fixed → o.nextBase = o.defn.source) ∧
     (o.defn.step = .step →
       (511 < o.base.val + 2 * o.defn.runLength - 1 → o.nextBase = o.defn.source) ∧
       (o.base.val + 2 * o.defn.runLength - 1 ≤ 511 → 1 ≤ o.defn.runLength →
         o.nextBase.val = o.base.val + o.defn.runLength)) ∧
     ∀ w, o.defn.step = .stepWrap w →
       (o.base.val + o.defn.runLength = o.defn.source.val + w * o.defn.runLength → o.nextBase = o.defn.source) ∧
       (o.base.val + o.defn.runLength ≠ o.defn.source.val + w * o.defn.runLength → o.base.val + o.defn.runLength ≤ 511 →
         o.nextBase.val = o.base.val + o.defn.runLength)) ∧
  ∀ (s : State) (r : Run) (o x : Order), s.held = false → s.executor = some r → s.order r.order = some o →
    r.stopping = false → o.defn.runLength ≤ r.position + 1 →
    let outcome := s.copyOutcome r.order o r.position
    let w := s.applyCopy outcome
    w.order r.order = some x →
    let counted : Order :=
      { x with
        runsDone := x.runsDone + 1
        base := x.nextBase
        remaining := if x.defn.runs = 0 then x.remaining else x.remaining - 1
        faults := if outcome = .fault then countUp x.faults else x.faults }
    let retires := x.defn.runs ≠ 0 ∧ x.remaining - 1 = 0
    let ended : State :=
      if retires then (w.setOrder r.order (some { counted with phase := .retired, pending := 0 })).releaseHeld (.order r.order)
      else w.setOrder r.order (some counted)
    let pulsed : State :=
      match x.defn.chain with
      | none => ended
      | some k => ended.deliver (.chain k)
    let free := State.startRun { pulsed with executor := none }
    ∃ t, exec .orderCopy s = .next t ∧ Quiet s t ∧ { t with notices := free.notices, ports := free.ports } = free ∧
      ∀ q, t.notices.get q = (w.notices.get q).takeAll t
        ((if retires then w.grantsFor q fun pt => if pt.heldBy (.order r.order) then pt.waiting.head? else none else []) ++
          raisedFor q
            (s.copyRaises outcome ++ (if outcome = .fault then [⟨x.defn.owner, .order r.order, .orderFault⟩] else []) ++
              if retires then [⟨x.defn.owner, .order r.order, .orderRetired⟩] else []))

/-! ### The scanner -/

/-- A SCAN_DEFINE part is staged at its port; the last part becomes the whole SCAN_DEFINE, which the port presents in its place
(R200), in the entry of that part and under its SEQ (log 14). SCAN_DEFINE accepts exactly what passes checks 1 to 4 of R142,
mode, trigger source and every entry in range, and stores it as a DEFINED scanner with fresh counts (R143). -/
def Obligations.ScanDefineInParts : Prop :=
  ((∀ (before after : List Entry) seq r whole, (∀ e ∈ before, Entry.isAnswered e = true) →
     presentAs whole (before ++ .accepted seq r :: after) = before ++ .accepted seq whole :: after) ∧
   ∀ (s : State) (p : Port) args, s.Due p (.scanDefinePart args) →
     let staged := if args.first = 0 then [] else (s.ports.get p).staged
     let whole := staged ++ args.entries
     ((staged.length ≠ args.first.toNat ∨ 16 < whole.length) → OnlyReplies (.scanDefinePart p args) s p .badArg .empty) ∧
     (staged.length = args.first.toNat → whole.length ≤ 16 →
       ∃ t, exec (.scanDefinePart p args) s = .next t ∧ { t with ports := s.ports } = s ∧
         (∀ q, q ≠ p → t.ports.get q = { s.ports.get q with attn := attnLevel (t.ports.get q) (t.notices.get q) }) ∧
         (args.last = false → t.ports.get p =
           { s.ports.get p with
             window := answerOldest .ok (.entries whole.length) (s.ports.get p).window
             staged := whole
             attn := attnLevel (t.ports.get p) (t.notices.get p) }) ∧
         (args.last = true →
           t.presented p = some (.scanDefine { mode := args.mode, trigger := args.trigger, entries := whole }) ∧
           t.ports.get p =
             { s.ports.get p with
               window :=
                 presentAs (.scanDefine { mode := args.mode, trigger := args.trigger, entries := whole }) (s.ports.get p).window
               staged := []
               attn := attnLevel (t.ports.get p) (t.notices.get p) }))) ∧
  (∀ (s : State) (p : Port) args, s.Due p (.scanDefine args) →
    (scannerOf? p args = none → OnlyReplies (.scanDefine p args) s p .badArg .empty) ∧
    ∀ sc, scannerOf? p args = some sc →
      (s.scanner.any Scanner.holds = true → OnlyReplies (.scanDefine p args) s p .state .empty) ∧
      (s.scanner.any Scanner.holds = false → ∃ t, exec (.scanDefine p args) s = .next t ∧ Replied s t p .ok .empty ∧
        t.scanner = some sc ∧ { t with scanner := s.scanner, ports := s.ports } = s)) ∧
  ∀ (p : Port) (args : ScanDefineArgs) (sc : Scanner), scannerOf? p args = some sc ↔
    sc.owner = p ∧
      args.mode = (match sc.mode with
       | .single => 0x00
       | .continuous => 0x01) ∧
      CarriesTrigger args.trigger sc.trigger ∧ sc.trigger ≠ .scanEnd ∧
      (∀ i, sc.trigger ≠ .point i) ∧ args.entries.length = sc.entries.length ∧
      (∀ x ∈ args.entries.zip sc.entries, x.1.input.toNat = x.2.input.val ∧ x.1.dest.toNat = x.2.dest.val ∧
        x.1.gain = x.2.gain ∧ x.1.offset = x.2.offset ∧ x.1.rail = (if x.2.rail then 0x01 else 0x00)) ∧
      (sc.entries.map ScanEntry.dest).Nodup ∧ sc.phase = .defined ∧ sc.current = 0 ∧ sc.pendingPass = false ∧
      sc.passCount = 0 ∧ sc.missed = 0

/-- SCAN_ARM claims every destination together, or is refused with the first failing point and its entry number (R48, R144);
SCAN_DISARM releases them with handover, CLAIM_GRANTED for the head waiter of each in ascending point order, and keeps the
missed count (R46, R47, R49, R81, R152); that a trigger counted in it just before stays counted, against the wording of R154, is
log 19 (DESIGN CHOICE). SCAN_START delivers one trigger (R146), SCAN_STOP abandons the conversion and keeps the claims (R151),
SCAN_QUERY reports the record (R153). -/
def Obligations.ScannerRequestsByState : Prop :=
  (∀ sc : Scanner, sc.holds = true ↔ sc.phase = .armed ∨ sc.phase = .converting) ∧
  ((∀ (s : State) (p : Port), s.Due p .scanArm →
     ((s.scanner = none ∨ s.scanner.any Scanner.holds = true) → OnlyReplies (.scanArm p) s p .state .empty) ∧
     ∀ sc, s.scanner = some sc → sc.phase = .defined →
       (∀ before i after, sc.entries.map ScanEntry.dest = before ++ i :: after → (∀ j ∈ before, s.FreeForInternal j) →
         (s.slot i = none → OnlyReplies (.scanArm p) s p .notDefined (.scanArm i before.length none)) ∧
         ∀ pt, s.slot i = some pt →
           (pt.defn.rights.internal = false → OnlyReplies (.scanArm p) s p .noRight (.scanArm i before.length none)) ∧
           ∀ w, pt.defn.rights.internal = true → pt.holder.party = some w →
             OnlyReplies (.scanArm p) s p .held (.scanArm i before.length (some w))) ∧
       ((∀ i ∈ sc.entries.map ScanEntry.dest, s.FreeForInternal i) →
         ∃ t, exec (.scanArm p) s = .next t ∧ Replied s t p .ok .empty ∧
           t.scanner = some { sc with phase := .armed, current := 0, pendingPass := false, missed := 0 } ∧
           (∀ i ∈ sc.entries.map ScanEntry.dest,
             t.slot i = (s.slot i).map fun pt => { pt with holder := .scanner, waiters := [] }) ∧
           (∀ i, i ∉ sc.entries.map ScanEntry.dest → t.slot i = s.slot i) ∧
           { t with points := s.points, scanner := s.scanner, ports := s.ports } = s)) ∧
   ∀ (s : State) (p : Port), s.Due p .scanDisarm →
     (s.scanner = none → OnlyReplies (.scanDisarm p) s p .state .empty) ∧
     ∀ sc, s.scanner = some sc →
       (sc.phase = .defined → OnlyReplies (.scanDisarm p) s p .ok .empty) ∧
       (sc.phase ≠ .defined → ∃ t, exec (.scanDisarm p) s = .next t ∧ Replied s t p .ok .empty ∧
         t.scanner = some { sc with phase := .defined, current := 0, pendingPass := false } ∧
         (∀ i, t.slot i = (s.slot i).map fun pt => if pt.heldBy .scanner then pt.release else pt) ∧
         (∀ q, t.notices.get q = (s.notices.get q).takeAll t
           (s.grantsFor q fun pt => if pt.heldBy .scanner then pt.waiting.head? else none)) ∧
         { t with points := s.points, scanner := s.scanner, notices := s.notices, ports := s.ports } = s)) ∧
  (∀ (s : State) (p : Port), s.Due p .scanStart →
    (s.scanner.any Scanner.holds = false → OnlyReplies (.scanStart p) s p .state .empty) ∧
    ∀ sc, s.scanner = some sc → sc.phase ≠ .defined → ∃ t, exec (.scanStart p) s = .next t ∧
      t.scanner = some sc.accept ∧
      Replied s t p .ok (.scanStart sc.accept.phase sc.accept.pendingPass sc.accept.missed) ∧
      { t with scanner := s.scanner, ports := s.ports } = s) ∧
  (∀ (s : State) (p : Port), s.Due p .scanStop →
    (s.scanner.any Scanner.holds = false → OnlyReplies (.scanStop p) s p .state .empty) ∧
    ∀ sc, s.scanner = some sc →
      (sc.phase = .armed → OnlyReplies (.scanStop p) s p .ok .empty) ∧
      (sc.phase = .converting → ∃ t, exec (.scanStop p) s = .next t ∧ Replied s t p .ok .empty ∧
        t.scanner = some { sc with phase := .armed, current := 0, pendingPass := false } ∧
        { t with scanner := s.scanner, ports := s.ports } = s)) ∧
  ∀ (s : State) (p : Port), s.Due p .scanQuery → OnlyReplies (.scanQuery p) s p .ok (.scanner s.scanner)

/-- CONVERSION_COMPLETION writes the mapped result, clamped whatever the limit action, and moves on to the next entry or ends
the pass (R24, R148, R149, R150). At a pass end the POINT trigger of the write and then SCAN_END are taken one at a time, the
executor choosing after each: log 9 (DEDUCED). -/
def Obligations.ConversionWritesItsResult : Prop :=
  ∀ (s : State) (raw : BitVec 12) (sc : Scanner) (e : ScanEntry) (pt : Point), s.held = false → s.scanner = some sc →
    sc.phase = .converting → (∀ i, sc.trigger ≠ .point i) → sc.entries[sc.current]? = some e → s.slot e.dest = some pt →
    pt.heldBy .scanner = true →
    let x : Int := ((raw.toNat : Int) * e.gain.toInt).tdiv 256 + e.offset.toInt
    let clamped := !pt.defn.inRange x
    let q : Quality := if clamped || (e.rail && (raw = 0 || raw = 4095)) then .suspect else .good
    let w := s.store e.dest pt (pt.defn.fit x) q
    let after : Scanner :=
      if sc.current + 1 < sc.entries.length then { sc with current := sc.current + 1 }
      else
        match sc.mode, sc.pendingPass with
        | .continuous, _ => { sc with passCount := sc.passCount + 1, current := 0 }
        | .single, true => { sc with passCount := sc.passCount + 1, current := 0, pendingPass := false }
        | .single, false => { sc with passCount := sc.passCount + 1, current := 0, phase := .armed }
    let pulsed := if sc.current + 1 < sc.entries.length then w else w.deliverToOrders .scanEnd
    ∃ t, exec (.conversionCompletion raw) s = .next t ∧ Quiet s t ∧ t.scanner = some after ∧
      (∀ q', t.notices.get q' =
        (w.notices.get q').takeAll t (raisedFor q' (s.writeRaises e.dest pt (pt.defn.fit x) q clamped))) ∧
      { t with scanner := pulsed.scanner, notices := pulsed.notices, ports := pulsed.ports } = pulsed

/-! ### The time base -/

/-- TICK: while the run state is RUN a tick is produced for every consumer and the next interval begins (R157, R159; the ticks
that a consumer has yet to take are counted, log 6). A consumer takes a tick that is due at it while the run state is RUN, a
timer only while it runs too (R159). TICK_SET: the five rows of its table, and the period and run state held before in the
response (R158). -/
def Obligations.TickIsProducedAndSet : Prop :=
  (∀ s : State, s.held = false → s.tickGen.running = true → ∃ t, exec .tick s = .next t ∧ Quiet s t ∧
     t.tickGen = { s.tickGen with interval := some s.tickGen.period, dueTable := s.tickGen.dueTable + 1,
                                  dueArbiter := s.tickGen.dueArbiter + 1 } ∧
     (∀ n : Fin 4, t.timers[n.val] =
       { s.timers[n.val] with due := if s.timers[n.val].running then s.timers[n.val].due + 1 else s.timers[n.val].due }) ∧
     { t with tickGen := s.tickGen, timers := s.timers, ports := s.ports } = s) ∧
  (∀ (s : State) (p : Port) period code, s.Due p (.tickSet period code) →
     ((period = 0 ∨ 10000 < period.toNat ∨ 1 < code.toNat) → OnlyReplies (.tickSet p period code) s p .badArg .empty) ∧
     (1 ≤ period.toNat → period.toNat ≤ 10000 → ∀ run : Bool, code = (if run then 1 else 0) →
       ∃ t, exec (.tickSet p period code) s = .next t ∧ Replied s t p .ok (.tick s.tickGen.period s.tickGen.running) ∧
         t.tickGen =
           { s.tickGen with
             period := period.toNat
             running := run
             interval :=
               if run then (if s.tickGen.running then s.tickGen.interval else some period.toNat)
               else if s.tickGen.running then none else s.tickGen.interval } ∧
         { t with tickGen := s.tickGen, ports := s.ports } = s)) ∧
  ∀ s : State,
    (s.ageingDue = true ↔ s.tickGen.running = true ∧ 0 < s.tickGen.dueTable) ∧
    (s.arbiterDue = true ↔ s.tickGen.running = true ∧ 0 < s.tickGen.dueArbiter) ∧
    ∀ n : Fin 4, s.timerDue n = true ↔ s.tickGen.running = true ∧ s.timers[n.val].running = true ∧ 0 < s.timers[n.val].due

/-- TICK_AGEING ages every aged point by 1 and makes it STALE at its max age, with QUALITY for its subscribers in ascending
point order and the safe level on its lines; POINT_STALE names that event at such a point (R96, R97, R77, R81, R105; log 8). -/
def Obligations.AgeingAtATick : Prop :=
  ∀ s : State, s.held = false → s.ageingDue = true →
    let causes (q : Port) : List (Subject × Cause) :=
      ((List.finRange 512).filter fun i => s.goesStale i && (s.sub q i).isSome).map fun i => (.point i, .quality)
    ∃ t, exec .tickAgeing s = .next t ∧ Quiet s t ∧
    (∀ i, s.goesStale i = true → exec (.pointStale i) s = .next t) ∧
    (∀ i, t.slot i = (s.slot i).map fun pt =>
      if pt.defn.maxAge ≠ 0 ∧ (pt.quality = .good ∨ pt.quality = .suspect) then
        { pt with age := pt.age + 1, quality := if pt.age + 1 = pt.defn.maxAge then .stale else pt.quality }
      else pt) ∧
    (∀ i, s.goesStale i = true ↔
      ∃ pt ∈ s.slot i, pt.defn.maxAge ≠ 0 ∧ (pt.quality = .good ∨ pt.quality = .suspect) ∧ pt.age + 1 = pt.defn.maxAge) ∧
    (∀ n : Fin 8, t.outputs[n.val] =
      if s.outputs[n.val].point.any s.goesStale then { s.outputs[n.val] with level := s.outputs[n.val].safe }
      else s.outputs[n.val]) ∧
    (∀ q, t.notices.get q = (s.notices.get q).takeAll t (causes q)) ∧
    (∀ q subject c, (subject, c) ∈ causes q ↔
      ∃ i, subject = .point i ∧ c = .quality ∧ s.goesStale i = true ∧ (s.sub q i).isSome) ∧
    t.tickGen = { s.tickGen with dueTable := s.tickGen.dueTable - 1 } ∧
    { t with points := s.points, outputs := s.outputs, notices := s.notices, tickGen := s.tickGen, ports := s.ports } = s

/-- CLAIM_ARBITER_TICK counts down the leases and then the waits of every point: a lapsed claim is handed over, with
CLAIM_LAPSED for the former holder and CLAIM_GRANTED for the head waiter, an expired wait is removed, with WAIT_EXPIRED for its
port, in ascending point order, and each lowers its port's count by 1; LEASE_LAPSE and WAIT_EXPIRY name that event at such a
point (R46, R50, R51, R81; log 8). -/
def Obligations.ArbiterTickCountsDown : Prop :=
  (∀ s : State, s.held = false → s.arbiterDue = true →
    let causes (q : Port) : List (Subject × Cause) := (List.finRange 512).flatMap fun i => (s.slot i).toList.flatMap fun pt =>
      (if pt.lapsing = some q then [(.point i, .claimLapsed)] else []) ++
        (if pt.lapsing.isSome ∧ pt.waiting.head? = some q then [(.point i, .claimGranted)] else []) ++
        (pt.expiring.filter fun w => w = q).map fun _ => (.point i, .waitExpired)
    (∀ q subject c, (subject, c) ∈ causes q ↔ ∃ i, subject = .point i ∧ ∃ pt ∈ s.slot i,
      (c = .claimLapsed ∧ pt.lapsing = some q) ∨
        (c = .claimGranted ∧ pt.lapsing.isSome ∧ pt.waiting.head? = some q) ∨ (c = .waitExpired ∧ q ∈ pt.expiring)) ∧
    ∃ t, exec .claimArbiterTick s = .next t ∧ Quiet s t ∧
    (∀ i, ∀ pt ∈ s.slot i, pt.lapsing.isSome → exec (.leaseLapse i) s = .next t) ∧
    (∀ i, ∀ pt ∈ s.slot i, ∀ q ∈ pt.expiring, exec (.waitExpiry i q) s = .next t) ∧
    (∀ i, t.slot i = (s.slot i).map Point.counted) ∧
    (∀ q, t.counts.get q = s.counts.get q -
      (((List.finRange 512).countP fun i => (s.slot i).any fun pt => pt.lapsing = some q) +
        (List.finRange 512).countP fun i => (s.slot i).any fun pt => pt.expiring.contains q)) ∧
    (∀ q, t.notices.get q = (s.notices.get q).takeAll t (causes q)) ∧
    t.tickGen = { s.tickGen with dueArbiter := s.tickGen.dueArbiter - 1 } ∧
    { t with points := s.points, counts := s.counts, notices := s.notices, tickGen := s.tickGen, ports := s.ports } = s) ∧
  ∀ pt : Point,
    let waited (x : Point) : Point :=
      { x with waiters := (x.waiters.filter fun w => 1 < w.remaining).map fun w => { w with remaining := w.remaining - 1 } }
    (∀ c l, pt.holder = .port c → c.lease = some l → l.remaining = 1 →
      pt.counted = waited pt.release ∧ pt.lapsing = some c.port) ∧
    (∀ c l, pt.holder = .port c → c.lease = some l → 1 < l.remaining →
      pt.counted = waited
        { pt with holder := .port { c with lease := some { length := l.length, remaining := l.remaining - 1 } } } ∧
      pt.lapsing = none) ∧
    (∀ c, pt.holder = .port c → c.lease = none → pt.counted = waited pt ∧ pt.lapsing = none) ∧
    ((∀ c, pt.holder ≠ .port c) → pt.counted = waited pt ∧ pt.lapsing = none) ∧
    (pt.lapsing = none → pt.expiring = (pt.waiters.filter fun w => w.remaining ≤ 1).map Wait.port) ∧
    ∀ q, pt.lapsing = some q → pt.expiring = (pt.waiters.tail.filter fun w => w.remaining ≤ 1).map Wait.port

/-- TIMER_TICK counts a running timer down; at 0 it expires, delivers its trigger and reloads or stops; TIMER_EXPIRY names that
tick (R163, log 8). TIMER_SET loads a timer and starts it from its full period (R161); TIMER_STOP stops it and keeps its count
(R162; a tick due at it is dropped, log 7). -/
def Obligations.TimersCountAndAreSet : Prop :=
  (∀ (s : State) (n : Fin 4), s.held = false → s.timerDue n = true →
     (1 < s.timers[n.val].remaining → ∃ t, exec (.timerTick n) s = .next t ∧ Quiet s t ∧
       t.timers[n.val] =
         { s.timers[n.val] with remaining := s.timers[n.val].remaining - 1, due := s.timers[n.val].due - 1 } ∧
       (∀ m : Fin 4, m ≠ n → t.timers[m.val] = s.timers[m.val]) ∧ { t with timers := s.timers, ports := s.ports } = s) ∧
     (s.timers[n.val].remaining ≤ 1 → ∃ t, exec (.timerTick n) s = .next t ∧ exec (.timerExpiry n) s = .next t ∧ Quiet s t ∧
       t.timers[n.val] =
         (match s.timers[n.val].mode with
          | .periodic => { s.timers[n.val] with remaining := s.timers[n.val].period, due := s.timers[n.val].due - 1 }
          | .oneShot => { s.timers[n.val] with running := false, remaining := 0, due := 0 }) ∧
       (∀ m : Fin 4, m ≠ n → t.timers[m.val] = s.timers[m.val]) ∧
       { t with timers := s.timers, ports := s.ports } = s.deliver (.timer n))) ∧
  (∀ (s : State) (p : Port) num period mode, s.Due p (.timerSet num period mode) →
    ((3 < num.toNat ∨ period = 0 ∨ 1 < mode.toNat) → OnlyReplies (.timerSet p num period mode) s p .badArg .empty) ∧
    ∀ (n : Fin 4) (m : TimerMode), num.toNat = n.val → period ≠ 0 →
      ((mode = 0 ∧ m = .oneShot) ∨ (mode = 1 ∧ m = .periodic)) →
      ∃ t, exec (.timerSet p num period mode) s = .next t ∧
        Replied s t p .ok
          (.timer s.timers[n.val].period s.timers[n.val].mode s.timers[n.val].running s.timers[n.val].remaining) ∧
        t.timers[n.val] = { period := period.toNat, mode := m, running := true, remaining := period.toNat,
                            due := s.timers[n.val].due } ∧
        (∀ k : Fin 4, k ≠ n → t.timers[k.val] = s.timers[k.val]) ∧ { t with timers := s.timers, ports := s.ports } = s) ∧
  ∀ (s : State) (p : Port) num, s.Due p (.timerStop num) →
    (3 < num.toNat → OnlyReplies (.timerStop p num) s p .badArg .empty) ∧
    ∀ n : Fin 4, num.toNat = n.val → ∃ t, exec (.timerStop p num) s = .next t ∧
      Replied s t p .ok (.timerStop s.timers[n.val].running s.timers[n.val].remaining) ∧
      t.timers[n.val] = { s.timers[n.val] with running := false, due := 0 } ∧
      (∀ k : Fin 4, k ≠ n → t.timers[k.val] = s.timers[k.val]) ∧ { t with timers := s.timers, ports := s.ports } = s

/-- LINE_EDGE: the settled level changes, and LINEn is delivered when the edge setting in force matches (R165). LINE_SET
replaces the line's edge setting, reports the one before and the settled level, and makes no edge (R166). -/
def Obligations.LinesTakeEdgesAndSettings : Prop :=
  (∀ (s : State) (n : Fin 8) (level : Level), s.held = false → s.lines[n.val].settled ≠ level →
     ∃ t, exec (.lineEdge n level) s = .next t ∧ Quiet s t ∧ t.lines[n.val] = { s.lines[n.val] with settled := level } ∧
       (∀ m : Fin 8, m ≠ n → t.lines[m.val] = s.lines[m.val]) ∧
       { t with lines := s.lines, ports := s.ports } =
         if s.lines[n.val].edge = .both ∨ (s.lines[n.val].edge = .rise ∧ level = .high) ∨
           (s.lines[n.val].edge = .fall ∧ level = .low) then s.deliver (.line n) else s) ∧
  ∀ (s : State) (p : Port) num code, s.Due p (.lineSet num code) →
    ((7 < num.toNat ∨ 3 < code.toNat) → OnlyReplies (.lineSet p num code) s p .badArg .empty) ∧
    ∀ (n : Fin 8) (e : EdgeSetting), num.toNat = n.val →
      ((code = 0 ∧ e = .off) ∨ (code = 1 ∧ e = .rise) ∨ (code = 2 ∧ e = .fall) ∨ (code = 3 ∧ e = .both)) →
      ∃ t, exec (.lineSet p num code) s = .next t ∧ Replied s t p .ok (.line s.lines[n.val].edge s.lines[n.val].settled) ∧
        t.lines[n.val] = { s.lines[n.val] with edge := e } ∧ (∀ m : Fin 8, m ≠ n → t.lines[m.val] = s.lines[m.val]) ∧
        { t with lines := s.lines, ports := s.ports } = s

/-! ### The ports -/

/-- SELECT_FALLING fixes the SPI mode and the outbound frame: the head response when it is ANSWERED, else an idle frame with the
port status of the moment (R170, R178, R180, R194, R196). The port drives the frame byte by byte and then 00h (R170, R171). -/
def Obligations.SelectFixesTheFrame : Prop :=
  (∀ (s : State) (p : Port) (sck : Level), s.held = false → (s.ports.get p).exchange = none →
     ∃ t x, exec (.selectFalling p sck) s = .next t ∧ t.ports.get p =
         { s.ports.get p with exchange := some x, attn := attnLevel (t.ports.get p) (t.notices.get p) } ∧
       (∀ q, q ≠ p → t.ports.get q = { s.ports.get q with attn := attnLevel (t.ports.get q) (t.notices.get q) }) ∧
       { t with ports := s.ports } = s ∧ x.mode = (if sck = .low then .mode0 else .mode3) ∧
       x.clearsDropped = (s.ports.get p).droppedFlag ∧ x.clearsReset = (s.ports.get p).resetFlag ∧
       (∀ seq st body rest, (s.ports.get p).window = .answered seq st body :: rest →
         x.carries = true ∧ x.frame = outboundFrame s p seq st body) ∧
       (∀ seq r rest, (s.ports.get p).window = .accepted seq r :: rest →
         x.carries = false ∧ x.frame = outboundFrame s p 0 .idle .empty) ∧
       ((s.ports.get p).window = [] → x.carries = false ∧ x.frame = outboundFrame s p 0 .idle .empty)) ∧
  (∀ (s : State) (p : Port),
     (∀ seq st body,
       let head := BitVec.ofNat 8 ((bodyBytes body).length + 8) :: seq :: statusCode st :: (portStatusBytes s p ++ bodyBytes body)
       outboundFrame s p seq st body = head ++ bytes2 (crc head)) ∧
     ((s.notices.get p).queue.length ≤ 32 → (s.ports.get p).window.length ≤ 4 → ∃ count flags,
       portStatusBytes s p = [count, flags, s.epoch] ∧ count.toNat = (s.notices.get p).queue.length ∧
       (flags.extractLsb' 0 3).toNat = ((s.ports.get p).window.takeWhile Entry.isAnswered).length ∧
       (flags.getLsbD 3 = true ↔ (s.notices.get p).owed ≠ []) ∧ flags.getLsbD 4 = (s.ports.get p).droppedFlag ∧
       flags.getLsbD 5 = (s.ports.get p).resetFlag ∧ flags.getLsbD 6 = s.config.get p ∧ flags.getLsbD 7 = false)) ∧
  ∀ (x : Exchange) (k : Nat), (∀ b, x.frame[k]? = some b → x.outByte k = b) ∧ (x.frame.length ≤ k → x.outByte k = 0)

/-- EXCHANGE_END after anything but 512 sampling edges: DROPPED is set, nothing is delivered and nothing accepted (R171).
EXCHANGE_END of a complete exchange: the carried response leaves, the flags carried are cleared, and then the inbound frame
finds no request, no place, or takes a place with the outcome of its checks (R173, R174, R179, R181). -/
def Obligations.ExchangeEndIsFaultyOrComplete : Prop :=
  (∀ (s : State) (p : Port) (bytes : List Byte) (spare : Fin 8), s.held = false → (s.ports.get p).exchange.isSome →
     8 * bytes.length + spare.val ≠ 512 →
     ∃ t, exec (.exchangeEnd p bytes spare) s = .next t ∧
       t.ports.get p =
         { s.ports.get p with exchange := none, droppedFlag := true, attn := attnLevel (t.ports.get p) (t.notices.get p) } ∧
       (∀ q, q ≠ p → t.ports.get q = { s.ports.get q with attn := attnLevel (t.ports.get q) (t.notices.get q) }) ∧
       { t with ports := s.ports } = s) ∧
  (∀ code : Code, code.isConfig = true ↔ code ∈
    ([.define, .undefine, .tableReset, .orderDefine, .orderArm, .orderDisarm, .orderFire, .orderClear, .scanDefine, .scanArm,
      .scanStart, .scanStop, .scanDisarm, .tickSet, .timerSet, .timerStop, .lineSet, .outputBind, .configGrant, .configRevoke,
      .forcePortReset] : List Code)) ∧
  (∀ (s : State) (p : Port) (bytes : List Byte) (x : Exchange), s.held = false → (s.ports.get p).exchange = some x →
    bytes.length = 64 →
    let window := if x.carries then (s.ports.get p).window.tail else (s.ports.get p).window
    let dropped := (s.ports.get p).droppedFlag && !x.clearsDropped
    let full := bytes.getD 0 0 ≠ 0 ∧ 4 ≤ window.length
    ∃ t, exec (.exchangeEnd p bytes 0) s = .next t ∧
      t.ports.get p =
        { s.ports.get p with
          exchange := none
          window := if bytes.getD 0 0 = 0 ∨ full then window else window ++ [s.examine p bytes]
          droppedFlag := if full then true else dropped
          resetFlag := (s.ports.get p).resetFlag && !x.clearsReset
          attn := attnLevel (t.ports.get p) (t.notices.get p) } ∧
      (∀ q, q ≠ p → t.ports.get q = { s.ports.get q with attn := attnLevel (t.ports.get q) (t.notices.get q) }) ∧
      { t with ports := s.ports } = s) ∧
  ∀ (s : State) (p : Port) (bytes : List Byte), bytes.length = 64 →
    let len := (bytes.getD 0 0).toNat
    let seq := bytes.getD 1 0
    let given := (bytes.take len).drop (len - 2)
    let computed := bytes2 (crc (bytes.take (len - 2)))
    ((len < 5 ∨ 64 < len) → s.examine p bytes = .answered seq .badLength .empty) ∧
    (5 ≤ len → len ≤ 64 →
      (given ≠ computed → s.examine p bytes = .answered seq .badCheck .empty) ∧
      (given = computed →
        (code? (bytes.getD 2 0) = none → s.examine p bytes = .answered seq .badCode .empty) ∧
        ∀ code, code? (bytes.getD 2 0) = some code →
          (parseBody code ((bytes.take (len - 2)).drop 3) = none → s.examine p bytes = .answered seq .badLength .empty) ∧
          ∀ r, parseBody code ((bytes.take (len - 2)).drop 3) = some r →
            s.examine p bytes =
              if code.isConfig = true ∧ s.config.get p = false then .answered seq .noRight .empty else .accepted seq r))

/-- Request frames: the codes of Table 10.3-1 and the bodies of Table 10.3-2, field by field with their widths (R193, R194,
R197). A body is read exactly when its length is the fixed part of its code plus k entries with k in bounds, and a flag byte
other than 00h reads as set (R174, R193, R197). The frame of every request that a requester can send passes every check and is
read back as that request (R174). -/
def Obligations.RequestFramesAreReadBack : Prop :=
  ((([.read, .write, .define, .undefine, .tableReset, .claim, .release, .renew, .withdraw, .batchOpen, .batchPut, .batchCommit,
      .batchDiscard, .subscribe, .unsubscribe, .fetch, .orderDefine, .orderArm, .orderDisarm, .orderFire, .orderQuery,
      .orderClear, .scanDefine, .scanArm, .scanStart, .scanStop, .scanDisarm, .scanQuery, .tickSet, .timerSet, .timerStop,
      .lineSet, .outputBind, .portReset, .forcePortReset, .configGrant, .configRevoke, .attnSet, .status] : List Code).map codeByte =
    [0x01, 0x02, 0x03, 0x04, 0x05, 0x10, 0x11, 0x12, 0x13, 0x18, 0x19, 0x1A,
     0x1B, 0x20, 0x21, 0x22, 0x28, 0x29, 0x2A, 0x2B, 0x2C,
     0x2D, 0x30, 0x31, 0x32, 0x33, 0x34, 0x35, 0x38, 0x39, 0x3A,
     0x3B, 0x40, 0x48, 0x49, 0x4A, 0x4B, 0x4C, 0x4D]) ∧
   (∀ b code, code? b = some code ↔ b = codeByte code) ∧
   (∀ (seq : Byte) r, requestFrame seq r =
     (let head := BitVec.ofNat 8 ((requestBody r).length + 5) :: seq :: codeByte (requestCode r) :: requestBody r
      head ++ bytes2 (crc head))) ∧
   (∀ ps, requestBody (.read ps) = fields (ps.map fun i => (2, i.toNat))) ∧
   (∀ es, requestBody (.write es) =
     es.flatMap fun e => fields [(2, e.point.toNat), (4, e.value.toNat), (1, if e.suspect then 1 else 0)]) ∧
   (∀ x, requestBody (.define x) = fields
     [(2, x.point.toNat), (1, x.kind.toNat), (4, x.default.toNat), (4, x.low.toNat), (4, x.high.toNat), (1, x.limitAction.toNat),
      (2, x.maxAge.toNat), (1, x.rights.toNat)]) ∧
   (∀ x, requestBody (.claim x) =
     fields [(2, x.lease.toNat), (1, x.mode.toNat), (1, if x.wait then 1 else 0), (2, x.waitLimit.toNat)] ++
       fields (x.points.map fun i => (2, i.toNat))) ∧
   (∀ x, requestBody (.release x) = fields ((1, x.selector.toNat) :: x.points.map fun i => (2, i.toNat))) ∧
   (∀ x, requestBody (.renew x) = fields ((1, x.selector.toNat) :: x.points.map fun i => (2, i.toNat))) ∧
   (∀ es, requestBody (.batchPut es) = es.flatMap fun e => fields [(2, e.point.toNat), (4, e.value.toNat)]) ∧
   (∀ f, requestBody (.batchCommit f) = fields [(1, if f then 1 else 0)]) ∧
   (∀ x, requestBody (.subscribe x) = fields [(2, x.point.toNat), (1, x.condition.toNat), (4, x.deadband.toNat)]) ∧
   (∀ n x, requestBody (.orderDefine n x) = fields
     [(1, n.toNat), (1, x.trigger.cls.toNat), (2, x.trigger.number.toNat), (2, x.source.toNat), (1, x.runLength.toNat),
      (2, x.dest.toNat), (1, x.step.toNat), (1, x.wrap.toNat), (1, x.transform.toNat), (2, x.gain.toNat), (4, x.offset.toNat),
      (4, x.threshold.toNat), (2, x.runs.toNat), (1, x.chain.toNat)]) ∧
   (∀ x, requestBody (.scanDefinePart x) =
     fields [(1, x.mode.toNat), (1, x.trigger.cls.toNat), (2, x.trigger.number.toNat), (1, x.first.toNat),
       (1, if x.last then 1 else 0)] ++
     x.entries.flatMap fun e =>
       fields [(1, e.input.toNat), (2, e.dest.toNat), (2, e.gain.toNat), (4, e.offset.toNat), (1, e.rail.toNat)]) ∧
   (∀ i r, requestBody (.tickSet i r) = fields [(2, i.toNat), (1, r.toNat)]) ∧
   (∀ n i m, requestBody (.timerSet n i m) = fields [(1, n.toNat), (2, i.toNat), (1, m.toNat)]) ∧
   (∀ n e, requestBody (.lineSet n e) = fields [(1, n.toNat), (1, e.toNat)]) ∧
   (∀ x, requestBody (.outputBind x) =
     fields [(1, x.line.toNat), (2, x.point.toNat), (1, x.safe.toNat), (1, if x.invert then 1 else 0)]) ∧
   (∀ r n, requestBody (.attnSet r n) = fields [(1, r.toNat), (1, n.toNat)]) ∧
   (∀ i, requestBody (.undefine i) = fields [(2, i.toNat)] ∧ requestBody (.withdraw i) = fields [(2, i.toNat)] ∧
     requestBody (.unsubscribe i) = fields [(2, i.toNat)]) ∧
   (∀ n, ∀ r ∈ ([.fetch n, .orderArm n, .orderDisarm n, .orderFire n, .orderQuery n, .orderClear n, .timerStop n,
     .forcePortReset n, .configGrant n, .configRevoke n] : List Request), requestBody r = fields [(1, n.toNat)]) ∧
   ∀ r ∈ ([.tableReset, .batchOpen, .batchDiscard, .scanArm, .scanStart, .scanStop, .scanDisarm, .scanQuery, .portReset, .status] :
     List Request), requestBody r = []) ∧
  ((∀ (code : Code) (length : Nat) (body : List Byte), (code, length) ∈
     ([(.define, 19), (.undefine, 2), (.tableReset, 0), (.withdraw, 2), (.batchOpen, 0), (.batchCommit, 1), (.batchDiscard, 0),
       (.subscribe, 7), (.unsubscribe, 2), (.fetch, 1), (.orderDefine, 25), (.orderArm, 1), (.orderDisarm, 1), (.orderFire, 1),
       (.orderQuery, 1), (.orderClear, 1), (.scanArm, 0), (.scanStart, 0), (.scanStop, 0), (.scanDisarm, 0), (.scanQuery, 0),
       (.tickSet, 3), (.timerSet, 4), (.timerStop, 1), (.lineSet, 2), (.outputBind, 5), (.portReset, 0), (.forcePortReset, 1),
       (.configGrant, 1), (.configRevoke, 1), (.attnSet, 2), (.status, 0)] : List (Code × Nat)) →
     ((parseBody code body).isSome = true ↔ body.length = length)) ∧
   ∀ (code : Code) (fixed entry least most : Nat) (body : List Byte), (code, fixed, entry, least, most) ∈
     ([(.read, 0, 2, 1, 7), (.write, 0, 7, 1, 8), (.claim, 6, 2, 1, 16), (.release, 1, 2, 0, 16), (.renew, 1, 2, 0, 16),
       (.batchPut, 0, 6, 1, 8), (.scanDefine, 6, 10, 1, 5)] : List (Code × Nat × Nat × Nat × Nat)) →
     ((parseBody code body).isSome = true ↔ ∃ k, least ≤ k ∧ k ≤ most ∧ body.length = fixed + k * entry)) ∧
  (∀ (code : Code) (before after : List Byte) (flag : Byte), flag ≠ 0 →
     ((code = .write ∧ before.length % 7 = 6) ∨ (code = .claim ∧ before.length = 3) ∨ (code = .batchCommit ∧ before.length = 0) ∨
       (code = .scanDefine ∧ before.length = 5) ∨ (code = .outputBind ∧ before.length = 4)) →
     parseBody code (before ++ flag :: after) = parseBody code (before ++ 1 :: after)) ∧
  ∀ (s : State) (p : Port) (seq : Byte) (r : Request), r.wf = true → (∀ x, r ≠ .scanDefine x) →
    ((requestCode r).isConfig = true → s.config.get p = true) →
    (padded (requestFrame seq r)).length = 64 ∧ s.examine p (padded (requestFrame seq r)) = .accepted seq r

/-- The CRC: register FFFFh, polynomial 1021h, most significant bit first, no final inversion; 31h to 39h give 29B1h (R195). -/
def Obligations.CrcOfAFrame : Prop :=
  crc [] = 0xFFFF ∧
    (∀ bytes (b : Byte), crc (bytes ++ [b]) =
      [b.getLsbD 7, b.getLsbD 6, b.getLsbD 5, b.getLsbD 4, b.getLsbD 3, b.getLsbD 2, b.getLsbD 1, b.getLsbD 0].foldl crcBit
        (crc bytes)) ∧
    (∀ (r : BitVec 16) (bit : Bool), crcBit r bit = if (r.getLsbD 15 ^^ bit) = true then (r <<< 1) ^^^ 0x1021 else r <<< 1) ∧
    crc [0x31, 0x32, 0x33, 0x34, 0x35, 0x36, 0x37, 0x38, 0x39] = 0x29B1 ∧
    (∀ (s : State) (p : Port) (bytes : List Byte), 5 ≤ (bytes.getD 0 0).toNat → (bytes.getD 0 0).toNat ≤ 64 →
      let len := (bytes.getD 0 0).toNat
      (s.examine p bytes = .answered (bytes.getD 1 0) .badCheck .empty ↔
        (bytes.take len).drop (len - 2) ≠ bytes2 (crc (bytes.take (len - 2))))) ∧
    ∀ (s : State) (p : Port) seq st body, ∃ head,
      outboundFrame s p seq st body = head ++ [(crc head).extractLsb' 8 8, (crc head).extractLsb' 0 8] ∧
      head.length = (bodyBytes body).length + 6

/-- PORT_RESET, and FORCE_PORT_RESET of any port: the claims and waits, batch, subscriptions, notices, staged list and window of
the port end, its own entry alone stays, and RESET is set (R56, R69, R92, R188, R189, R200); each point handed over raises
CLAIM_GRANTED for the first other port on its waiter list, in ascending point order (R46, R47, R81). An exchange under way no
longer carries the response and does not clear RESET (R179, R181); that it still clears DROPPED is log 17 (DEDUCED). A
FORCE_PORT_RESET naming no port is refused (R189). -/
def Obligations.PortResetEndsThePortsState : Prop :=
  (∀ (s : State) (p q : Port) (c : Instr) (window : List Entry),
     (s.Due p .portReset ∧ c = .portReset p ∧ q = p ∧ window = ownEntry (s.ports.get p).window) ∨
       (∃ target, s.Due p (.forcePortReset target) ∧ c = .forcePortReset p target ∧ target = portCode q ∧
         window = if q = p then ownEntry (s.ports.get p).window else []) →
     ∃ t, exec c s = .next t ∧
       t.ports.get q =
         { s.ports.get q with
           window := window
           exchange := (s.ports.get q).exchange.map fun x => { x with carries := false, clearsReset := false }
           resetFlag := true
           staged := []
           attn := attnLevel (t.ports.get q) (t.notices.get q) } ∧
       (∀ o, o ≠ q → t.ports.get o =
         { s.ports.get o with
           window := if o = p then answerOldest .ok .empty (s.ports.get o).window else (s.ports.get o).window
           attn := attnLevel (t.ports.get o) (t.notices.get o) }) ∧
       (∀ i, t.slot i = (s.slot i).map fun pt =>
         let left : Point := { pt with waiters := pt.waiters.filter fun w => w.port ≠ q }
         if pt.heldBy (.port q) then left.release else left) ∧
       (∀ o, t.counts.get o = if o = q then 0 else s.counts.get o) ∧
       (∀ o, t.batches.get o = if o = q then none else s.batches.get o) ∧
       (∀ o, t.notices.get o =
         (if o = q then NoticeUnit.reset else s.notices.get o).takeAll t
           (s.grantsFor o fun pt => if pt.heldBy (.port q) then (pt.waiting.filter fun w => w ≠ q).head? else none)) ∧
       { t with points := s.points, counts := s.counts, batches := s.batches, notices := s.notices, ports := s.ports } = s) ∧
  (∀ (s : State) (p : Port) target, s.Due p (.forcePortReset target) → (target.toNat = 0 ∨ 4 < target.toNat) →
    OnlyReplies (.forcePortReset p target) s p .badArg .empty) ∧
  ∀ before seq r after, (∀ e ∈ before, Entry.isAnswered e = true) →
    ownEntry (before ++ .accepted seq r :: after) = [.answered seq .ok .empty]

/-- CONFIG_GRANT adds a port to the configuration set (R186); CONFIG_REVOKE removes one, but never the only member (R187). -/
def Obligations.ConfigSetIsGrantedAndRevoked : Prop :=
  Code.configGrant.isConfig = true ∧ Code.configRevoke.isConfig = true ∧
  (∀ (s : State) (p : Port) code, s.Due p (.configGrant code) →
    ((code.toNat = 0 ∨ 4 < code.toNat) → OnlyReplies (.configGrant p code) s p .badArg .empty) ∧
    ∀ q, code = portCode q → ∃ t, exec (.configGrant p code) s = .next t ∧ Replied s t p .ok (.config t.config) ∧
      (∀ o, t.config.get o = if o = q then true else s.config.get o) ∧
      { t with config := s.config, ports := s.ports } = s) ∧
  ∀ (s : State) (p : Port) code, s.Due p (.configRevoke code) →
    ((code.toNat = 0 ∨ 4 < code.toNat) → OnlyReplies (.configRevoke p code) s p .badArg .empty) ∧
    ∀ q, code = portCode q →
      (s.config.get q = true → (∀ o, o ≠ q → s.config.get o = false) → OnlyReplies (.configRevoke p code) s p .state .empty) ∧
      ((s.config.get q = false ∨ ∃ o, o ≠ q ∧ s.config.get o = true) →
        ∃ t, exec (.configRevoke p code) s = .next t ∧ Replied s t p .ok (.config t.config) ∧
          (∀ o, t.config.get o = if o = q then false else s.config.get o) ∧
          { t with config := s.config, ports := s.ports } = s)

/-- ATTN_SET replaces both attention enables and reports the ones before (R183); STATUS reports and changes nothing (R184; the
level of ATTNn is the one before its own answer, log 10). ATTNn is low exactly while responses are ready and response attention
is on, or notices are queued or owed and notice attention is on (R182). -/
def Obligations.AttentionFollowsItsInputs : Prop :=
  (Code.attnSet.isConfig = false ∧ Code.status.isConfig = false ∧
   (∀ (s : State) (p : Port) response notice, s.Due p (.attnSet response notice) →
     ((1 < response.toNat ∨ 1 < notice.toNat) → OnlyReplies (.attnSet p response notice) s p .badArg .empty) ∧
     ∀ r n : Bool, response = (if r then 1 else 0) → notice = (if n then 1 else 0) →
       ∃ t, exec (.attnSet p response notice) s = .next t ∧ { t with ports := s.ports } = s ∧
         t.ports.get p =
           { s.ports.get p with
             window := answerOldest .ok (.attn (s.ports.get p).responseAttn (s.ports.get p).noticeAttn) (s.ports.get p).window
             responseAttn := r
             noticeAttn := n
             attn := attnLevel (t.ports.get p) (t.notices.get p) } ∧
         ∀ q, q ≠ p → t.ports.get q = { s.ports.get q with attn := attnLevel (t.ports.get q) (t.notices.get q) }) ∧
   ∀ (s : State) (p : Port), s.Due p .status →
     OnlyReplies (.status p) s p .ok
       (.status p s.config (s.ports.get p).responseAttn (s.ports.get p).noticeAttn (s.ports.get p).attn
         (acceptedCount (s.ports.get p).window - 1))) ∧
  ∀ (ps : PortState) (u : NoticeUnit), attnLevel ps u = .low ↔
    ((∃ e ∈ ps.window.head?, e.isAnswered = true) ∧ ps.responseAttn = true) ∨
      ((u.queue ≠ [] ∨ u.owed ≠ []) ∧ ps.noticeAttn = true)
end

