-- ==== Sys2Proof/Laws/State.lean ====
section
/-! SUPPORT. Laws/State.lean: what each update of State leaves in each field, one lemma per field and update. -/

namespace Sys2Proof.Machine

/-! ### setSlot -/

@[simp] theorem State.setSlot_held (s : State) (i : PointIx) (x : Option Point) : (s.setSlot i x).held = s.held := rfl
@[simp] theorem State.setSlot_points (s : State) (i : PointIx) (x : Option Point) :
    (s.setSlot i x).points = s.points.set i.val x := rfl
@[simp] theorem State.setSlot_epoch (s : State) (i : PointIx) (x : Option Point) :
    (s.setSlot i x).epoch = s.epoch := rfl
@[simp] theorem State.setSlot_counts (s : State) (i : PointIx) (x : Option Point) :
    (s.setSlot i x).counts = s.counts := rfl
@[simp] theorem State.setSlot_batches (s : State) (i : PointIx) (x : Option Point) :
    (s.setSlot i x).batches = s.batches := rfl
@[simp] theorem State.setSlot_notices (s : State) (i : PointIx) (x : Option Point) :
    (s.setSlot i x).notices = s.notices := rfl
@[simp] theorem State.setSlot_outputs (s : State) (i : PointIx) (x : Option Point) :
    (s.setSlot i x).outputs = s.outputs := rfl
@[simp] theorem State.setSlot_orders (s : State) (i : PointIx) (x : Option Point) :
    (s.setSlot i x).orders = s.orders := rfl
@[simp] theorem State.setSlot_executor (s : State) (i : PointIx) (x : Option Point) :
    (s.setSlot i x).executor = s.executor := rfl
@[simp] theorem State.setSlot_scanner (s : State) (i : PointIx) (x : Option Point) :
    (s.setSlot i x).scanner = s.scanner := rfl
@[simp] theorem State.setSlot_tickGen (s : State) (i : PointIx) (x : Option Point) :
    (s.setSlot i x).tickGen = s.tickGen := rfl
@[simp] theorem State.setSlot_timers (s : State) (i : PointIx) (x : Option Point) :
    (s.setSlot i x).timers = s.timers := rfl
@[simp] theorem State.setSlot_lines (s : State) (i : PointIx) (x : Option Point) :
    (s.setSlot i x).lines = s.lines := rfl
@[simp] theorem State.setSlot_ports (s : State) (i : PointIx) (x : Option Point) :
    (s.setSlot i x).ports = s.ports := rfl
@[simp] theorem State.setSlot_config (s : State) (i : PointIx) (x : Option Point) :
    (s.setSlot i x).config = s.config := rfl
@[simp] theorem State.setSlot_pending (s : State) (i : PointIx) (x : Option Point) :
    (s.setSlot i x).pending = s.pending := rfl

/-! ### modifySlot -/

@[simp] theorem State.modifySlot_held (s : State) (i : PointIx) (f : Point → Point) :
    (s.modifySlot i f).held = s.held := rfl
@[simp] theorem State.modifySlot_points (s : State) (i : PointIx) (f : Point → Point) :
    (s.modifySlot i f).points = s.points.set i.val ((s.slot i).map f) := rfl
@[simp] theorem State.modifySlot_epoch (s : State) (i : PointIx) (f : Point → Point) :
    (s.modifySlot i f).epoch = s.epoch := rfl
@[simp] theorem State.modifySlot_counts (s : State) (i : PointIx) (f : Point → Point) :
    (s.modifySlot i f).counts = s.counts := rfl
@[simp] theorem State.modifySlot_batches (s : State) (i : PointIx) (f : Point → Point) :
    (s.modifySlot i f).batches = s.batches := rfl
@[simp] theorem State.modifySlot_notices (s : State) (i : PointIx) (f : Point → Point) :
    (s.modifySlot i f).notices = s.notices := rfl
@[simp] theorem State.modifySlot_outputs (s : State) (i : PointIx) (f : Point → Point) :
    (s.modifySlot i f).outputs = s.outputs := rfl
@[simp] theorem State.modifySlot_orders (s : State) (i : PointIx) (f : Point → Point) :
    (s.modifySlot i f).orders = s.orders := rfl
@[simp] theorem State.modifySlot_executor (s : State) (i : PointIx) (f : Point → Point) :
    (s.modifySlot i f).executor = s.executor := rfl
@[simp] theorem State.modifySlot_scanner (s : State) (i : PointIx) (f : Point → Point) :
    (s.modifySlot i f).scanner = s.scanner := rfl
@[simp] theorem State.modifySlot_tickGen (s : State) (i : PointIx) (f : Point → Point) :
    (s.modifySlot i f).tickGen = s.tickGen := rfl
@[simp] theorem State.modifySlot_timers (s : State) (i : PointIx) (f : Point → Point) :
    (s.modifySlot i f).timers = s.timers := rfl
@[simp] theorem State.modifySlot_lines (s : State) (i : PointIx) (f : Point → Point) :
    (s.modifySlot i f).lines = s.lines := rfl
@[simp] theorem State.modifySlot_ports (s : State) (i : PointIx) (f : Point → Point) :
    (s.modifySlot i f).ports = s.ports := rfl
@[simp] theorem State.modifySlot_config (s : State) (i : PointIx) (f : Point → Point) :
    (s.modifySlot i f).config = s.config := rfl
@[simp] theorem State.modifySlot_pending (s : State) (i : PointIx) (f : Point → Point) :
    (s.modifySlot i f).pending = s.pending := rfl

/-! ### mapPoints -/

@[simp] theorem State.mapPoints_held (s : State) (f : Point → Point) : (s.mapPoints f).held = s.held := rfl
@[simp] theorem State.mapPoints_points (s : State) (f : Point → Point) :
    (s.mapPoints f).points = mapTable (Option.map f) s.points := rfl
@[simp] theorem State.mapPoints_epoch (s : State) (f : Point → Point) : (s.mapPoints f).epoch = s.epoch := rfl
@[simp] theorem State.mapPoints_counts (s : State) (f : Point → Point) : (s.mapPoints f).counts = s.counts := rfl
@[simp] theorem State.mapPoints_batches (s : State) (f : Point → Point) : (s.mapPoints f).batches = s.batches := rfl
@[simp] theorem State.mapPoints_notices (s : State) (f : Point → Point) : (s.mapPoints f).notices = s.notices := rfl
@[simp] theorem State.mapPoints_outputs (s : State) (f : Point → Point) : (s.mapPoints f).outputs = s.outputs := rfl
@[simp] theorem State.mapPoints_orders (s : State) (f : Point → Point) : (s.mapPoints f).orders = s.orders := rfl
@[simp] theorem State.mapPoints_executor (s : State) (f : Point → Point) : (s.mapPoints f).executor = s.executor := rfl
@[simp] theorem State.mapPoints_scanner (s : State) (f : Point → Point) : (s.mapPoints f).scanner = s.scanner := rfl
@[simp] theorem State.mapPoints_tickGen (s : State) (f : Point → Point) : (s.mapPoints f).tickGen = s.tickGen := rfl
@[simp] theorem State.mapPoints_timers (s : State) (f : Point → Point) : (s.mapPoints f).timers = s.timers := rfl
@[simp] theorem State.mapPoints_lines (s : State) (f : Point → Point) : (s.mapPoints f).lines = s.lines := rfl
@[simp] theorem State.mapPoints_ports (s : State) (f : Point → Point) : (s.mapPoints f).ports = s.ports := rfl
@[simp] theorem State.mapPoints_config (s : State) (f : Point → Point) : (s.mapPoints f).config = s.config := rfl
@[simp] theorem State.mapPoints_pending (s : State) (f : Point → Point) : (s.mapPoints f).pending = s.pending := rfl

/-! ### setNotices -/

@[simp] theorem State.setNotices_held (s : State) (p : Port) (u : NoticeUnit) : (s.setNotices p u).held = s.held := rfl
@[simp] theorem State.setNotices_points (s : State) (p : Port) (u : NoticeUnit) :
    (s.setNotices p u).points = s.points := rfl
@[simp] theorem State.setNotices_epoch (s : State) (p : Port) (u : NoticeUnit) :
    (s.setNotices p u).epoch = s.epoch := rfl
@[simp] theorem State.setNotices_counts (s : State) (p : Port) (u : NoticeUnit) :
    (s.setNotices p u).counts = s.counts := rfl
@[simp] theorem State.setNotices_batches (s : State) (p : Port) (u : NoticeUnit) :
    (s.setNotices p u).batches = s.batches := rfl
@[simp] theorem State.setNotices_notices (s : State) (p : Port) (u : NoticeUnit) :
    (s.setNotices p u).notices = s.notices.set p u := rfl
@[simp] theorem State.setNotices_outputs (s : State) (p : Port) (u : NoticeUnit) :
    (s.setNotices p u).outputs = s.outputs := rfl
@[simp] theorem State.setNotices_orders (s : State) (p : Port) (u : NoticeUnit) :
    (s.setNotices p u).orders = s.orders := rfl
@[simp] theorem State.setNotices_executor (s : State) (p : Port) (u : NoticeUnit) :
    (s.setNotices p u).executor = s.executor := rfl
@[simp] theorem State.setNotices_scanner (s : State) (p : Port) (u : NoticeUnit) :
    (s.setNotices p u).scanner = s.scanner := rfl
@[simp] theorem State.setNotices_tickGen (s : State) (p : Port) (u : NoticeUnit) :
    (s.setNotices p u).tickGen = s.tickGen := rfl
@[simp] theorem State.setNotices_timers (s : State) (p : Port) (u : NoticeUnit) :
    (s.setNotices p u).timers = s.timers := rfl
@[simp] theorem State.setNotices_lines (s : State) (p : Port) (u : NoticeUnit) :
    (s.setNotices p u).lines = s.lines := rfl
@[simp] theorem State.setNotices_ports (s : State) (p : Port) (u : NoticeUnit) :
    (s.setNotices p u).ports = s.ports := rfl
@[simp] theorem State.setNotices_config (s : State) (p : Port) (u : NoticeUnit) :
    (s.setNotices p u).config = s.config := rfl
@[simp] theorem State.setNotices_pending (s : State) (p : Port) (u : NoticeUnit) :
    (s.setNotices p u).pending = s.pending := rfl

/-! ### setSub -/

@[simp] theorem State.setSub_held (s : State) (p : Port) (i : PointIx) (x : Option Sub) :
    (s.setSub p i x).held = s.held := rfl
@[simp] theorem State.setSub_points (s : State) (p : Port) (i : PointIx) (x : Option Sub) :
    (s.setSub p i x).points = s.points := rfl
@[simp] theorem State.setSub_epoch (s : State) (p : Port) (i : PointIx) (x : Option Sub) :
    (s.setSub p i x).epoch = s.epoch := rfl
@[simp] theorem State.setSub_counts (s : State) (p : Port) (i : PointIx) (x : Option Sub) :
    (s.setSub p i x).counts = s.counts := rfl
@[simp] theorem State.setSub_batches (s : State) (p : Port) (i : PointIx) (x : Option Sub) :
    (s.setSub p i x).batches = s.batches := rfl
@[simp] theorem State.setSub_notices (s : State) (p : Port) (i : PointIx) (x : Option Sub) :
    (s.setSub p i x).notices = s.notices.set p { s.notices.get p with subs := (s.notices.get p).subs.set i.val x } := rfl
@[simp] theorem State.setSub_outputs (s : State) (p : Port) (i : PointIx) (x : Option Sub) :
    (s.setSub p i x).outputs = s.outputs := rfl
@[simp] theorem State.setSub_orders (s : State) (p : Port) (i : PointIx) (x : Option Sub) :
    (s.setSub p i x).orders = s.orders := rfl
@[simp] theorem State.setSub_executor (s : State) (p : Port) (i : PointIx) (x : Option Sub) :
    (s.setSub p i x).executor = s.executor := rfl
@[simp] theorem State.setSub_scanner (s : State) (p : Port) (i : PointIx) (x : Option Sub) :
    (s.setSub p i x).scanner = s.scanner := rfl
@[simp] theorem State.setSub_tickGen (s : State) (p : Port) (i : PointIx) (x : Option Sub) :
    (s.setSub p i x).tickGen = s.tickGen := rfl
@[simp] theorem State.setSub_timers (s : State) (p : Port) (i : PointIx) (x : Option Sub) :
    (s.setSub p i x).timers = s.timers := rfl
@[simp] theorem State.setSub_lines (s : State) (p : Port) (i : PointIx) (x : Option Sub) :
    (s.setSub p i x).lines = s.lines := rfl
@[simp] theorem State.setSub_ports (s : State) (p : Port) (i : PointIx) (x : Option Sub) :
    (s.setSub p i x).ports = s.ports := rfl
@[simp] theorem State.setSub_config (s : State) (p : Port) (i : PointIx) (x : Option Sub) :
    (s.setSub p i x).config = s.config := rfl
@[simp] theorem State.setSub_pending (s : State) (p : Port) (i : PointIx) (x : Option Sub) :
    (s.setSub p i x).pending = s.pending := rfl

/-! ### dropSubs -/

@[simp] theorem State.dropSubs_held (s : State) (i : PointIx) : (s.dropSubs i).held = s.held := rfl
@[simp] theorem State.dropSubs_points (s : State) (i : PointIx) : (s.dropSubs i).points = s.points := rfl
@[simp] theorem State.dropSubs_epoch (s : State) (i : PointIx) : (s.dropSubs i).epoch = s.epoch := rfl
@[simp] theorem State.dropSubs_counts (s : State) (i : PointIx) : (s.dropSubs i).counts = s.counts := rfl
@[simp] theorem State.dropSubs_batches (s : State) (i : PointIx) : (s.dropSubs i).batches = s.batches := rfl
@[simp] theorem State.dropSubs_notices (s : State) (i : PointIx) :
    (s.dropSubs i).notices = s.notices.map fun _ u => { u with subs := u.subs.set i.val none } := rfl
@[simp] theorem State.dropSubs_outputs (s : State) (i : PointIx) : (s.dropSubs i).outputs = s.outputs := rfl
@[simp] theorem State.dropSubs_orders (s : State) (i : PointIx) : (s.dropSubs i).orders = s.orders := rfl
@[simp] theorem State.dropSubs_executor (s : State) (i : PointIx) : (s.dropSubs i).executor = s.executor := rfl
@[simp] theorem State.dropSubs_scanner (s : State) (i : PointIx) : (s.dropSubs i).scanner = s.scanner := rfl
@[simp] theorem State.dropSubs_tickGen (s : State) (i : PointIx) : (s.dropSubs i).tickGen = s.tickGen := rfl
@[simp] theorem State.dropSubs_timers (s : State) (i : PointIx) : (s.dropSubs i).timers = s.timers := rfl
@[simp] theorem State.dropSubs_lines (s : State) (i : PointIx) : (s.dropSubs i).lines = s.lines := rfl
@[simp] theorem State.dropSubs_ports (s : State) (i : PointIx) : (s.dropSubs i).ports = s.ports := rfl
@[simp] theorem State.dropSubs_config (s : State) (i : PointIx) : (s.dropSubs i).config = s.config := rfl
@[simp] theorem State.dropSubs_pending (s : State) (i : PointIx) : (s.dropSubs i).pending = s.pending := rfl

/-! ### followSubs -/

@[simp] theorem State.followSubs_held (s : State) (i : PointIx) (k : Kind) (v : Word) :
    (s.followSubs i k v).held = s.held := rfl
@[simp] theorem State.followSubs_points (s : State) (i : PointIx) (k : Kind) (v : Word) :
    (s.followSubs i k v).points = s.points := rfl
@[simp] theorem State.followSubs_epoch (s : State) (i : PointIx) (k : Kind) (v : Word) :
    (s.followSubs i k v).epoch = s.epoch := rfl
@[simp] theorem State.followSubs_counts (s : State) (i : PointIx) (k : Kind) (v : Word) :
    (s.followSubs i k v).counts = s.counts := rfl
@[simp] theorem State.followSubs_batches (s : State) (i : PointIx) (k : Kind) (v : Word) :
    (s.followSubs i k v).batches = s.batches := rfl
@[simp] theorem State.followSubs_notices (s : State) (i : PointIx) (k : Kind) (v : Word) :
    (s.followSubs i k v).notices = s.notices.map fun _ u => { u with subs := u.subs.set i.val (u.subs[i.val].map fun sub => sub.afterWrite k v) } := rfl
@[simp] theorem State.followSubs_outputs (s : State) (i : PointIx) (k : Kind) (v : Word) :
    (s.followSubs i k v).outputs = s.outputs := rfl
@[simp] theorem State.followSubs_orders (s : State) (i : PointIx) (k : Kind) (v : Word) :
    (s.followSubs i k v).orders = s.orders := rfl
@[simp] theorem State.followSubs_executor (s : State) (i : PointIx) (k : Kind) (v : Word) :
    (s.followSubs i k v).executor = s.executor := rfl
@[simp] theorem State.followSubs_scanner (s : State) (i : PointIx) (k : Kind) (v : Word) :
    (s.followSubs i k v).scanner = s.scanner := rfl
@[simp] theorem State.followSubs_tickGen (s : State) (i : PointIx) (k : Kind) (v : Word) :
    (s.followSubs i k v).tickGen = s.tickGen := rfl
@[simp] theorem State.followSubs_timers (s : State) (i : PointIx) (k : Kind) (v : Word) :
    (s.followSubs i k v).timers = s.timers := rfl
@[simp] theorem State.followSubs_lines (s : State) (i : PointIx) (k : Kind) (v : Word) :
    (s.followSubs i k v).lines = s.lines := rfl
@[simp] theorem State.followSubs_ports (s : State) (i : PointIx) (k : Kind) (v : Word) :
    (s.followSubs i k v).ports = s.ports := rfl
@[simp] theorem State.followSubs_config (s : State) (i : PointIx) (k : Kind) (v : Word) :
    (s.followSubs i k v).config = s.config := rfl
@[simp] theorem State.followSubs_pending (s : State) (i : PointIx) (k : Kind) (v : Word) :
    (s.followSubs i k v).pending = s.pending := rfl

/-! ### raise -/

@[simp] theorem State.raise_held (s : State) (p : Port) (x : Subject) (c : Cause) : (s.raise p x c).held = s.held := rfl
@[simp] theorem State.raise_points (s : State) (p : Port) (x : Subject) (c : Cause) :
    (s.raise p x c).points = s.points := rfl
@[simp] theorem State.raise_epoch (s : State) (p : Port) (x : Subject) (c : Cause) :
    (s.raise p x c).epoch = s.epoch := rfl
@[simp] theorem State.raise_counts (s : State) (p : Port) (x : Subject) (c : Cause) :
    (s.raise p x c).counts = s.counts := rfl
@[simp] theorem State.raise_batches (s : State) (p : Port) (x : Subject) (c : Cause) :
    (s.raise p x c).batches = s.batches := rfl
@[simp] theorem State.raise_notices (s : State) (p : Port) (x : Subject) (c : Cause) :
    (s.raise p x c).notices = s.notices.set p ((s.notices.get p).take x c (s.subjectState x)) := rfl
@[simp] theorem State.raise_outputs (s : State) (p : Port) (x : Subject) (c : Cause) :
    (s.raise p x c).outputs = s.outputs := rfl
@[simp] theorem State.raise_orders (s : State) (p : Port) (x : Subject) (c : Cause) :
    (s.raise p x c).orders = s.orders := rfl
@[simp] theorem State.raise_executor (s : State) (p : Port) (x : Subject) (c : Cause) :
    (s.raise p x c).executor = s.executor := rfl
@[simp] theorem State.raise_scanner (s : State) (p : Port) (x : Subject) (c : Cause) :
    (s.raise p x c).scanner = s.scanner := rfl
@[simp] theorem State.raise_tickGen (s : State) (p : Port) (x : Subject) (c : Cause) :
    (s.raise p x c).tickGen = s.tickGen := rfl
@[simp] theorem State.raise_timers (s : State) (p : Port) (x : Subject) (c : Cause) :
    (s.raise p x c).timers = s.timers := rfl
@[simp] theorem State.raise_lines (s : State) (p : Port) (x : Subject) (c : Cause) :
    (s.raise p x c).lines = s.lines := rfl
@[simp] theorem State.raise_ports (s : State) (p : Port) (x : Subject) (c : Cause) :
    (s.raise p x c).ports = s.ports := rfl
@[simp] theorem State.raise_config (s : State) (p : Port) (x : Subject) (c : Cause) :
    (s.raise p x c).config = s.config := rfl
@[simp] theorem State.raise_pending (s : State) (p : Port) (x : Subject) (c : Cause) :
    (s.raise p x c).pending = s.pending := rfl

/-! ### setBatch -/

@[simp] theorem State.setBatch_held (s : State) (p : Port) (b : Option Batch) : (s.setBatch p b).held = s.held := rfl
@[simp] theorem State.setBatch_points (s : State) (p : Port) (b : Option Batch) :
    (s.setBatch p b).points = s.points := rfl
@[simp] theorem State.setBatch_epoch (s : State) (p : Port) (b : Option Batch) : (s.setBatch p b).epoch = s.epoch := rfl
@[simp] theorem State.setBatch_counts (s : State) (p : Port) (b : Option Batch) :
    (s.setBatch p b).counts = s.counts := rfl
@[simp] theorem State.setBatch_batches (s : State) (p : Port) (b : Option Batch) :
    (s.setBatch p b).batches = s.batches.set p b := rfl
@[simp] theorem State.setBatch_notices (s : State) (p : Port) (b : Option Batch) :
    (s.setBatch p b).notices = s.notices := rfl
@[simp] theorem State.setBatch_outputs (s : State) (p : Port) (b : Option Batch) :
    (s.setBatch p b).outputs = s.outputs := rfl
@[simp] theorem State.setBatch_orders (s : State) (p : Port) (b : Option Batch) :
    (s.setBatch p b).orders = s.orders := rfl
@[simp] theorem State.setBatch_executor (s : State) (p : Port) (b : Option Batch) :
    (s.setBatch p b).executor = s.executor := rfl
@[simp] theorem State.setBatch_scanner (s : State) (p : Port) (b : Option Batch) :
    (s.setBatch p b).scanner = s.scanner := rfl
@[simp] theorem State.setBatch_tickGen (s : State) (p : Port) (b : Option Batch) :
    (s.setBatch p b).tickGen = s.tickGen := rfl
@[simp] theorem State.setBatch_timers (s : State) (p : Port) (b : Option Batch) :
    (s.setBatch p b).timers = s.timers := rfl
@[simp] theorem State.setBatch_lines (s : State) (p : Port) (b : Option Batch) : (s.setBatch p b).lines = s.lines := rfl
@[simp] theorem State.setBatch_ports (s : State) (p : Port) (b : Option Batch) : (s.setBatch p b).ports = s.ports := rfl
@[simp] theorem State.setBatch_config (s : State) (p : Port) (b : Option Batch) :
    (s.setBatch p b).config = s.config := rfl
@[simp] theorem State.setBatch_pending (s : State) (p : Port) (b : Option Batch) :
    (s.setBatch p b).pending = s.pending := rfl

/-! ### setCount -/

@[simp] theorem State.setCount_held (s : State) (p : Port) (n : Nat) : (s.setCount p n).held = s.held := rfl
@[simp] theorem State.setCount_points (s : State) (p : Port) (n : Nat) : (s.setCount p n).points = s.points := rfl
@[simp] theorem State.setCount_epoch (s : State) (p : Port) (n : Nat) : (s.setCount p n).epoch = s.epoch := rfl
@[simp] theorem State.setCount_counts (s : State) (p : Port) (n : Nat) :
    (s.setCount p n).counts = s.counts.set p n := rfl
@[simp] theorem State.setCount_batches (s : State) (p : Port) (n : Nat) : (s.setCount p n).batches = s.batches := rfl
@[simp] theorem State.setCount_notices (s : State) (p : Port) (n : Nat) : (s.setCount p n).notices = s.notices := rfl
@[simp] theorem State.setCount_outputs (s : State) (p : Port) (n : Nat) : (s.setCount p n).outputs = s.outputs := rfl
@[simp] theorem State.setCount_orders (s : State) (p : Port) (n : Nat) : (s.setCount p n).orders = s.orders := rfl
@[simp] theorem State.setCount_executor (s : State) (p : Port) (n : Nat) : (s.setCount p n).executor = s.executor := rfl
@[simp] theorem State.setCount_scanner (s : State) (p : Port) (n : Nat) : (s.setCount p n).scanner = s.scanner := rfl
@[simp] theorem State.setCount_tickGen (s : State) (p : Port) (n : Nat) : (s.setCount p n).tickGen = s.tickGen := rfl
@[simp] theorem State.setCount_timers (s : State) (p : Port) (n : Nat) : (s.setCount p n).timers = s.timers := rfl
@[simp] theorem State.setCount_lines (s : State) (p : Port) (n : Nat) : (s.setCount p n).lines = s.lines := rfl
@[simp] theorem State.setCount_ports (s : State) (p : Port) (n : Nat) : (s.setCount p n).ports = s.ports := rfl
@[simp] theorem State.setCount_config (s : State) (p : Port) (n : Nat) : (s.setCount p n).config = s.config := rfl
@[simp] theorem State.setCount_pending (s : State) (p : Port) (n : Nat) : (s.setCount p n).pending = s.pending := rfl

/-! ### countDown -/

@[simp] theorem State.countDown_held (s : State) (p : Port) : (s.countDown p).held = s.held := rfl
@[simp] theorem State.countDown_points (s : State) (p : Port) : (s.countDown p).points = s.points := rfl
@[simp] theorem State.countDown_epoch (s : State) (p : Port) : (s.countDown p).epoch = s.epoch := rfl
@[simp] theorem State.countDown_counts (s : State) (p : Port) :
    (s.countDown p).counts = s.counts.set p (s.counts.get p - 1) := rfl
@[simp] theorem State.countDown_batches (s : State) (p : Port) : (s.countDown p).batches = s.batches := rfl
@[simp] theorem State.countDown_notices (s : State) (p : Port) : (s.countDown p).notices = s.notices := rfl
@[simp] theorem State.countDown_outputs (s : State) (p : Port) : (s.countDown p).outputs = s.outputs := rfl
@[simp] theorem State.countDown_orders (s : State) (p : Port) : (s.countDown p).orders = s.orders := rfl
@[simp] theorem State.countDown_executor (s : State) (p : Port) : (s.countDown p).executor = s.executor := rfl
@[simp] theorem State.countDown_scanner (s : State) (p : Port) : (s.countDown p).scanner = s.scanner := rfl
@[simp] theorem State.countDown_tickGen (s : State) (p : Port) : (s.countDown p).tickGen = s.tickGen := rfl
@[simp] theorem State.countDown_timers (s : State) (p : Port) : (s.countDown p).timers = s.timers := rfl
@[simp] theorem State.countDown_lines (s : State) (p : Port) : (s.countDown p).lines = s.lines := rfl
@[simp] theorem State.countDown_ports (s : State) (p : Port) : (s.countDown p).ports = s.ports := rfl
@[simp] theorem State.countDown_config (s : State) (p : Port) : (s.countDown p).config = s.config := rfl
@[simp] theorem State.countDown_pending (s : State) (p : Port) : (s.countDown p).pending = s.pending := rfl

/-! ### setPort -/

@[simp] theorem State.setPort_held (s : State) (p : Port) (x : PortState) : (s.setPort p x).held = s.held := rfl
@[simp] theorem State.setPort_points (s : State) (p : Port) (x : PortState) : (s.setPort p x).points = s.points := rfl
@[simp] theorem State.setPort_epoch (s : State) (p : Port) (x : PortState) : (s.setPort p x).epoch = s.epoch := rfl
@[simp] theorem State.setPort_counts (s : State) (p : Port) (x : PortState) : (s.setPort p x).counts = s.counts := rfl
@[simp] theorem State.setPort_batches (s : State) (p : Port) (x : PortState) :
    (s.setPort p x).batches = s.batches := rfl
@[simp] theorem State.setPort_notices (s : State) (p : Port) (x : PortState) :
    (s.setPort p x).notices = s.notices := rfl
@[simp] theorem State.setPort_outputs (s : State) (p : Port) (x : PortState) :
    (s.setPort p x).outputs = s.outputs := rfl
@[simp] theorem State.setPort_orders (s : State) (p : Port) (x : PortState) : (s.setPort p x).orders = s.orders := rfl
@[simp] theorem State.setPort_executor (s : State) (p : Port) (x : PortState) :
    (s.setPort p x).executor = s.executor := rfl
@[simp] theorem State.setPort_scanner (s : State) (p : Port) (x : PortState) :
    (s.setPort p x).scanner = s.scanner := rfl
@[simp] theorem State.setPort_tickGen (s : State) (p : Port) (x : PortState) :
    (s.setPort p x).tickGen = s.tickGen := rfl
@[simp] theorem State.setPort_timers (s : State) (p : Port) (x : PortState) : (s.setPort p x).timers = s.timers := rfl
@[simp] theorem State.setPort_lines (s : State) (p : Port) (x : PortState) : (s.setPort p x).lines = s.lines := rfl
@[simp] theorem State.setPort_ports (s : State) (p : Port) (x : PortState) :
    (s.setPort p x).ports = s.ports.set p x := rfl
@[simp] theorem State.setPort_config (s : State) (p : Port) (x : PortState) : (s.setPort p x).config = s.config := rfl
@[simp] theorem State.setPort_pending (s : State) (p : Port) (x : PortState) :
    (s.setPort p x).pending = s.pending := rfl

/-! ### answer -/

@[simp] theorem State.answer_held (s : State) (p : Port) (st : Status) (b : Body) :
    (s.answer p st b).held = s.held := rfl
@[simp] theorem State.answer_points (s : State) (p : Port) (st : Status) (b : Body) :
    (s.answer p st b).points = s.points := rfl
@[simp] theorem State.answer_epoch (s : State) (p : Port) (st : Status) (b : Body) :
    (s.answer p st b).epoch = s.epoch := rfl
@[simp] theorem State.answer_counts (s : State) (p : Port) (st : Status) (b : Body) :
    (s.answer p st b).counts = s.counts := rfl
@[simp] theorem State.answer_batches (s : State) (p : Port) (st : Status) (b : Body) :
    (s.answer p st b).batches = s.batches := rfl
@[simp] theorem State.answer_notices (s : State) (p : Port) (st : Status) (b : Body) :
    (s.answer p st b).notices = s.notices := rfl
@[simp] theorem State.answer_outputs (s : State) (p : Port) (st : Status) (b : Body) :
    (s.answer p st b).outputs = s.outputs := rfl
@[simp] theorem State.answer_orders (s : State) (p : Port) (st : Status) (b : Body) :
    (s.answer p st b).orders = s.orders := rfl
@[simp] theorem State.answer_executor (s : State) (p : Port) (st : Status) (b : Body) :
    (s.answer p st b).executor = s.executor := rfl
@[simp] theorem State.answer_scanner (s : State) (p : Port) (st : Status) (b : Body) :
    (s.answer p st b).scanner = s.scanner := rfl
@[simp] theorem State.answer_tickGen (s : State) (p : Port) (st : Status) (b : Body) :
    (s.answer p st b).tickGen = s.tickGen := rfl
@[simp] theorem State.answer_timers (s : State) (p : Port) (st : Status) (b : Body) :
    (s.answer p st b).timers = s.timers := rfl
@[simp] theorem State.answer_lines (s : State) (p : Port) (st : Status) (b : Body) :
    (s.answer p st b).lines = s.lines := rfl
@[simp] theorem State.answer_ports (s : State) (p : Port) (st : Status) (b : Body) :
    (s.answer p st b).ports = s.ports.set p { s.ports.get p with window := answerOldest st b (s.ports.get p).window } := rfl
@[simp] theorem State.answer_config (s : State) (p : Port) (st : Status) (b : Body) :
    (s.answer p st b).config = s.config := rfl
@[simp] theorem State.answer_pending (s : State) (p : Port) (st : Status) (b : Body) :
    (s.answer p st b).pending = s.pending := rfl

/-! ### settle -/

@[simp] theorem State.settle_held (s : State) : s.settle.held = s.held := rfl
@[simp] theorem State.settle_points (s : State) : s.settle.points = s.points := rfl
@[simp] theorem State.settle_epoch (s : State) : s.settle.epoch = s.epoch := rfl
@[simp] theorem State.settle_counts (s : State) : s.settle.counts = s.counts := rfl
@[simp] theorem State.settle_batches (s : State) : s.settle.batches = s.batches := rfl
@[simp] theorem State.settle_notices (s : State) : s.settle.notices = s.notices := rfl
@[simp] theorem State.settle_outputs (s : State) : s.settle.outputs = s.outputs := rfl
@[simp] theorem State.settle_orders (s : State) : s.settle.orders = s.orders := rfl
@[simp] theorem State.settle_executor (s : State) : s.settle.executor = s.executor := rfl
@[simp] theorem State.settle_scanner (s : State) : s.settle.scanner = s.scanner := rfl
@[simp] theorem State.settle_tickGen (s : State) : s.settle.tickGen = s.tickGen := rfl
@[simp] theorem State.settle_timers (s : State) : s.settle.timers = s.timers := rfl
@[simp] theorem State.settle_lines (s : State) : s.settle.lines = s.lines := rfl
@[simp] theorem State.settle_ports (s : State) :
    s.settle.ports = s.ports.map fun p ps => { ps with attn := attnLevel ps (s.notices.get p) } := rfl
@[simp] theorem State.settle_config (s : State) : s.settle.config = s.config := rfl
@[simp] theorem State.settle_pending (s : State) : s.settle.pending = s.pending := rfl

/-! ### setOrder -/

@[simp] theorem State.setOrder_held (s : State) (n : OrderIx) (o : Option Order) : (s.setOrder n o).held = s.held := rfl
@[simp] theorem State.setOrder_points (s : State) (n : OrderIx) (o : Option Order) :
    (s.setOrder n o).points = s.points := rfl
@[simp] theorem State.setOrder_epoch (s : State) (n : OrderIx) (o : Option Order) :
    (s.setOrder n o).epoch = s.epoch := rfl
@[simp] theorem State.setOrder_counts (s : State) (n : OrderIx) (o : Option Order) :
    (s.setOrder n o).counts = s.counts := rfl
@[simp] theorem State.setOrder_batches (s : State) (n : OrderIx) (o : Option Order) :
    (s.setOrder n o).batches = s.batches := rfl
@[simp] theorem State.setOrder_notices (s : State) (n : OrderIx) (o : Option Order) :
    (s.setOrder n o).notices = s.notices := rfl
@[simp] theorem State.setOrder_outputs (s : State) (n : OrderIx) (o : Option Order) :
    (s.setOrder n o).outputs = s.outputs := rfl
@[simp] theorem State.setOrder_orders (s : State) (n : OrderIx) (o : Option Order) :
    (s.setOrder n o).orders = s.orders.set n.val o := rfl
@[simp] theorem State.setOrder_executor (s : State) (n : OrderIx) (o : Option Order) :
    (s.setOrder n o).executor = s.executor := rfl
@[simp] theorem State.setOrder_scanner (s : State) (n : OrderIx) (o : Option Order) :
    (s.setOrder n o).scanner = s.scanner := rfl
@[simp] theorem State.setOrder_tickGen (s : State) (n : OrderIx) (o : Option Order) :
    (s.setOrder n o).tickGen = s.tickGen := rfl
@[simp] theorem State.setOrder_timers (s : State) (n : OrderIx) (o : Option Order) :
    (s.setOrder n o).timers = s.timers := rfl
@[simp] theorem State.setOrder_lines (s : State) (n : OrderIx) (o : Option Order) :
    (s.setOrder n o).lines = s.lines := rfl
@[simp] theorem State.setOrder_ports (s : State) (n : OrderIx) (o : Option Order) :
    (s.setOrder n o).ports = s.ports := rfl
@[simp] theorem State.setOrder_config (s : State) (n : OrderIx) (o : Option Order) :
    (s.setOrder n o).config = s.config := rfl
@[simp] theorem State.setOrder_pending (s : State) (n : OrderIx) (o : Option Order) :
    (s.setOrder n o).pending = s.pending := rfl

/-! ### modifyOrder -/

@[simp] theorem State.modifyOrder_held (s : State) (n : OrderIx) (f : Order → Order) :
    (s.modifyOrder n f).held = s.held := rfl
@[simp] theorem State.modifyOrder_points (s : State) (n : OrderIx) (f : Order → Order) :
    (s.modifyOrder n f).points = s.points := rfl
@[simp] theorem State.modifyOrder_epoch (s : State) (n : OrderIx) (f : Order → Order) :
    (s.modifyOrder n f).epoch = s.epoch := rfl
@[simp] theorem State.modifyOrder_counts (s : State) (n : OrderIx) (f : Order → Order) :
    (s.modifyOrder n f).counts = s.counts := rfl
@[simp] theorem State.modifyOrder_batches (s : State) (n : OrderIx) (f : Order → Order) :
    (s.modifyOrder n f).batches = s.batches := rfl
@[simp] theorem State.modifyOrder_notices (s : State) (n : OrderIx) (f : Order → Order) :
    (s.modifyOrder n f).notices = s.notices := rfl
@[simp] theorem State.modifyOrder_outputs (s : State) (n : OrderIx) (f : Order → Order) :
    (s.modifyOrder n f).outputs = s.outputs := rfl
@[simp] theorem State.modifyOrder_orders (s : State) (n : OrderIx) (f : Order → Order) :
    (s.modifyOrder n f).orders = s.orders.set n.val ((s.order n).map f) := rfl
@[simp] theorem State.modifyOrder_executor (s : State) (n : OrderIx) (f : Order → Order) :
    (s.modifyOrder n f).executor = s.executor := rfl
@[simp] theorem State.modifyOrder_scanner (s : State) (n : OrderIx) (f : Order → Order) :
    (s.modifyOrder n f).scanner = s.scanner := rfl
@[simp] theorem State.modifyOrder_tickGen (s : State) (n : OrderIx) (f : Order → Order) :
    (s.modifyOrder n f).tickGen = s.tickGen := rfl
@[simp] theorem State.modifyOrder_timers (s : State) (n : OrderIx) (f : Order → Order) :
    (s.modifyOrder n f).timers = s.timers := rfl
@[simp] theorem State.modifyOrder_lines (s : State) (n : OrderIx) (f : Order → Order) :
    (s.modifyOrder n f).lines = s.lines := rfl
@[simp] theorem State.modifyOrder_ports (s : State) (n : OrderIx) (f : Order → Order) :
    (s.modifyOrder n f).ports = s.ports := rfl
@[simp] theorem State.modifyOrder_config (s : State) (n : OrderIx) (f : Order → Order) :
    (s.modifyOrder n f).config = s.config := rfl
@[simp] theorem State.modifyOrder_pending (s : State) (n : OrderIx) (f : Order → Order) :
    (s.modifyOrder n f).pending = s.pending := rfl

/-! ### stopRun -/

@[simp] theorem State.stopRun_held (s : State) (n : OrderIx) : (s.stopRun n).held = s.held := rfl
@[simp] theorem State.stopRun_points (s : State) (n : OrderIx) : (s.stopRun n).points = s.points := rfl
@[simp] theorem State.stopRun_epoch (s : State) (n : OrderIx) : (s.stopRun n).epoch = s.epoch := rfl
@[simp] theorem State.stopRun_counts (s : State) (n : OrderIx) : (s.stopRun n).counts = s.counts := rfl
@[simp] theorem State.stopRun_batches (s : State) (n : OrderIx) : (s.stopRun n).batches = s.batches := rfl
@[simp] theorem State.stopRun_notices (s : State) (n : OrderIx) : (s.stopRun n).notices = s.notices := rfl
@[simp] theorem State.stopRun_outputs (s : State) (n : OrderIx) : (s.stopRun n).outputs = s.outputs := rfl
@[simp] theorem State.stopRun_orders (s : State) (n : OrderIx) : (s.stopRun n).orders = s.orders := rfl
@[simp] theorem State.stopRun_executor (s : State) (n : OrderIx) :
    (s.stopRun n).executor = s.executor.map fun r => if r.order = n then r.stop else r := rfl
@[simp] theorem State.stopRun_scanner (s : State) (n : OrderIx) : (s.stopRun n).scanner = s.scanner := rfl
@[simp] theorem State.stopRun_tickGen (s : State) (n : OrderIx) : (s.stopRun n).tickGen = s.tickGen := rfl
@[simp] theorem State.stopRun_timers (s : State) (n : OrderIx) : (s.stopRun n).timers = s.timers := rfl
@[simp] theorem State.stopRun_lines (s : State) (n : OrderIx) : (s.stopRun n).lines = s.lines := rfl
@[simp] theorem State.stopRun_ports (s : State) (n : OrderIx) : (s.stopRun n).ports = s.ports := rfl
@[simp] theorem State.stopRun_config (s : State) (n : OrderIx) : (s.stopRun n).config = s.config := rfl
@[simp] theorem State.stopRun_pending (s : State) (n : OrderIx) : (s.stopRun n).pending = s.pending := rfl

/-! ### setTimer -/

@[simp] theorem State.setTimer_held (s : State) (n : Fin 4) (x : Timer) : (s.setTimer n x).held = s.held := rfl
@[simp] theorem State.setTimer_points (s : State) (n : Fin 4) (x : Timer) : (s.setTimer n x).points = s.points := rfl
@[simp] theorem State.setTimer_epoch (s : State) (n : Fin 4) (x : Timer) : (s.setTimer n x).epoch = s.epoch := rfl
@[simp] theorem State.setTimer_counts (s : State) (n : Fin 4) (x : Timer) : (s.setTimer n x).counts = s.counts := rfl
@[simp] theorem State.setTimer_batches (s : State) (n : Fin 4) (x : Timer) : (s.setTimer n x).batches = s.batches := rfl
@[simp] theorem State.setTimer_notices (s : State) (n : Fin 4) (x : Timer) : (s.setTimer n x).notices = s.notices := rfl
@[simp] theorem State.setTimer_outputs (s : State) (n : Fin 4) (x : Timer) : (s.setTimer n x).outputs = s.outputs := rfl
@[simp] theorem State.setTimer_orders (s : State) (n : Fin 4) (x : Timer) : (s.setTimer n x).orders = s.orders := rfl
@[simp] theorem State.setTimer_executor (s : State) (n : Fin 4) (x : Timer) :
    (s.setTimer n x).executor = s.executor := rfl
@[simp] theorem State.setTimer_scanner (s : State) (n : Fin 4) (x : Timer) : (s.setTimer n x).scanner = s.scanner := rfl
@[simp] theorem State.setTimer_tickGen (s : State) (n : Fin 4) (x : Timer) : (s.setTimer n x).tickGen = s.tickGen := rfl
@[simp] theorem State.setTimer_timers (s : State) (n : Fin 4) (x : Timer) :
    (s.setTimer n x).timers = s.timers.set n.val x := rfl
@[simp] theorem State.setTimer_lines (s : State) (n : Fin 4) (x : Timer) : (s.setTimer n x).lines = s.lines := rfl
@[simp] theorem State.setTimer_ports (s : State) (n : Fin 4) (x : Timer) : (s.setTimer n x).ports = s.ports := rfl
@[simp] theorem State.setTimer_config (s : State) (n : Fin 4) (x : Timer) : (s.setTimer n x).config = s.config := rfl
@[simp] theorem State.setTimer_pending (s : State) (n : Fin 4) (x : Timer) : (s.setTimer n x).pending = s.pending := rfl

/-! ### setLine -/

@[simp] theorem State.setLine_held (s : State) (n : Fin 8) (x : InLine) : (s.setLine n x).held = s.held := rfl
@[simp] theorem State.setLine_points (s : State) (n : Fin 8) (x : InLine) : (s.setLine n x).points = s.points := rfl
@[simp] theorem State.setLine_epoch (s : State) (n : Fin 8) (x : InLine) : (s.setLine n x).epoch = s.epoch := rfl
@[simp] theorem State.setLine_counts (s : State) (n : Fin 8) (x : InLine) : (s.setLine n x).counts = s.counts := rfl
@[simp] theorem State.setLine_batches (s : State) (n : Fin 8) (x : InLine) : (s.setLine n x).batches = s.batches := rfl
@[simp] theorem State.setLine_notices (s : State) (n : Fin 8) (x : InLine) : (s.setLine n x).notices = s.notices := rfl
@[simp] theorem State.setLine_outputs (s : State) (n : Fin 8) (x : InLine) : (s.setLine n x).outputs = s.outputs := rfl
@[simp] theorem State.setLine_orders (s : State) (n : Fin 8) (x : InLine) : (s.setLine n x).orders = s.orders := rfl
@[simp] theorem State.setLine_executor (s : State) (n : Fin 8) (x : InLine) :
    (s.setLine n x).executor = s.executor := rfl
@[simp] theorem State.setLine_scanner (s : State) (n : Fin 8) (x : InLine) : (s.setLine n x).scanner = s.scanner := rfl
@[simp] theorem State.setLine_tickGen (s : State) (n : Fin 8) (x : InLine) : (s.setLine n x).tickGen = s.tickGen := rfl
@[simp] theorem State.setLine_timers (s : State) (n : Fin 8) (x : InLine) : (s.setLine n x).timers = s.timers := rfl
@[simp] theorem State.setLine_lines (s : State) (n : Fin 8) (x : InLine) :
    (s.setLine n x).lines = s.lines.set n.val x := rfl
@[simp] theorem State.setLine_ports (s : State) (n : Fin 8) (x : InLine) : (s.setLine n x).ports = s.ports := rfl
@[simp] theorem State.setLine_config (s : State) (n : Fin 8) (x : InLine) : (s.setLine n x).config = s.config := rfl
@[simp] theorem State.setLine_pending (s : State) (n : Fin 8) (x : InLine) : (s.setLine n x).pending = s.pending := rfl

/-! ### setOutput -/

@[simp] theorem State.setOutput_held (s : State) (n : Fin 8) (x : Output) : (s.setOutput n x).held = s.held := rfl
@[simp] theorem State.setOutput_points (s : State) (n : Fin 8) (x : Output) : (s.setOutput n x).points = s.points := rfl
@[simp] theorem State.setOutput_epoch (s : State) (n : Fin 8) (x : Output) : (s.setOutput n x).epoch = s.epoch := rfl
@[simp] theorem State.setOutput_counts (s : State) (n : Fin 8) (x : Output) : (s.setOutput n x).counts = s.counts := rfl
@[simp] theorem State.setOutput_batches (s : State) (n : Fin 8) (x : Output) :
    (s.setOutput n x).batches = s.batches := rfl
@[simp] theorem State.setOutput_notices (s : State) (n : Fin 8) (x : Output) :
    (s.setOutput n x).notices = s.notices := rfl
@[simp] theorem State.setOutput_outputs (s : State) (n : Fin 8) (x : Output) :
    (s.setOutput n x).outputs = s.outputs.set n.val x := rfl
@[simp] theorem State.setOutput_orders (s : State) (n : Fin 8) (x : Output) : (s.setOutput n x).orders = s.orders := rfl
@[simp] theorem State.setOutput_executor (s : State) (n : Fin 8) (x : Output) :
    (s.setOutput n x).executor = s.executor := rfl
@[simp] theorem State.setOutput_scanner (s : State) (n : Fin 8) (x : Output) :
    (s.setOutput n x).scanner = s.scanner := rfl
@[simp] theorem State.setOutput_tickGen (s : State) (n : Fin 8) (x : Output) :
    (s.setOutput n x).tickGen = s.tickGen := rfl
@[simp] theorem State.setOutput_timers (s : State) (n : Fin 8) (x : Output) : (s.setOutput n x).timers = s.timers := rfl
@[simp] theorem State.setOutput_lines (s : State) (n : Fin 8) (x : Output) : (s.setOutput n x).lines = s.lines := rfl
@[simp] theorem State.setOutput_ports (s : State) (n : Fin 8) (x : Output) : (s.setOutput n x).ports = s.ports := rfl
@[simp] theorem State.setOutput_config (s : State) (n : Fin 8) (x : Output) : (s.setOutput n x).config = s.config := rfl
@[simp] theorem State.setOutput_pending (s : State) (n : Fin 8) (x : Output) :
    (s.setOutput n x).pending = s.pending := rfl

/-! ### driveLines -/

@[simp] theorem State.driveLines_held (s : State) (hit : PointIx → Bool) : (s.driveLines hit).held = s.held := rfl
@[simp] theorem State.driveLines_points (s : State) (hit : PointIx → Bool) : (s.driveLines hit).points = s.points := rfl
@[simp] theorem State.driveLines_epoch (s : State) (hit : PointIx → Bool) : (s.driveLines hit).epoch = s.epoch := rfl
@[simp] theorem State.driveLines_counts (s : State) (hit : PointIx → Bool) : (s.driveLines hit).counts = s.counts := rfl
@[simp] theorem State.driveLines_batches (s : State) (hit : PointIx → Bool) :
    (s.driveLines hit).batches = s.batches := rfl
@[simp] theorem State.driveLines_notices (s : State) (hit : PointIx → Bool) :
    (s.driveLines hit).notices = s.notices := rfl
@[simp] theorem State.driveLines_outputs (s : State) (hit : PointIx → Bool) :
    (s.driveLines hit).outputs = mapTable (fun o => if o.point.any hit then { o with level := s.lineLevel o } else o) s.outputs := rfl
@[simp] theorem State.driveLines_orders (s : State) (hit : PointIx → Bool) : (s.driveLines hit).orders = s.orders := rfl
@[simp] theorem State.driveLines_executor (s : State) (hit : PointIx → Bool) :
    (s.driveLines hit).executor = s.executor := rfl
@[simp] theorem State.driveLines_scanner (s : State) (hit : PointIx → Bool) :
    (s.driveLines hit).scanner = s.scanner := rfl
@[simp] theorem State.driveLines_tickGen (s : State) (hit : PointIx → Bool) :
    (s.driveLines hit).tickGen = s.tickGen := rfl
@[simp] theorem State.driveLines_timers (s : State) (hit : PointIx → Bool) : (s.driveLines hit).timers = s.timers := rfl
@[simp] theorem State.driveLines_lines (s : State) (hit : PointIx → Bool) : (s.driveLines hit).lines = s.lines := rfl
@[simp] theorem State.driveLines_ports (s : State) (hit : PointIx → Bool) : (s.driveLines hit).ports = s.ports := rfl
@[simp] theorem State.driveLines_config (s : State) (hit : PointIx → Bool) : (s.driveLines hit).config = s.config := rfl
@[simp] theorem State.driveLines_pending (s : State) (hit : PointIx → Bool) :
    (s.driveLines hit).pending = s.pending := rfl

/-! ### deliverToScanner -/

@[simp] theorem State.deliverToScanner_held (s : State) (t : Trigger) : (s.deliverToScanner t).held = s.held := rfl
@[simp] theorem State.deliverToScanner_points (s : State) (t : Trigger) :
    (s.deliverToScanner t).points = s.points := rfl
@[simp] theorem State.deliverToScanner_epoch (s : State) (t : Trigger) : (s.deliverToScanner t).epoch = s.epoch := rfl
@[simp] theorem State.deliverToScanner_counts (s : State) (t : Trigger) :
    (s.deliverToScanner t).counts = s.counts := rfl
@[simp] theorem State.deliverToScanner_batches (s : State) (t : Trigger) :
    (s.deliverToScanner t).batches = s.batches := rfl
@[simp] theorem State.deliverToScanner_notices (s : State) (t : Trigger) :
    (s.deliverToScanner t).notices = s.notices := rfl
@[simp] theorem State.deliverToScanner_outputs (s : State) (t : Trigger) :
    (s.deliverToScanner t).outputs = s.outputs := rfl
@[simp] theorem State.deliverToScanner_orders (s : State) (t : Trigger) :
    (s.deliverToScanner t).orders = s.orders := rfl
@[simp] theorem State.deliverToScanner_executor (s : State) (t : Trigger) :
    (s.deliverToScanner t).executor = s.executor := rfl
@[simp] theorem State.deliverToScanner_scanner (s : State) (t : Trigger) :
    (s.deliverToScanner t).scanner = s.scanner.map fun sc => if sc.trigger = t then sc.accept else sc := rfl
@[simp] theorem State.deliverToScanner_tickGen (s : State) (t : Trigger) :
    (s.deliverToScanner t).tickGen = s.tickGen := rfl
@[simp] theorem State.deliverToScanner_timers (s : State) (t : Trigger) :
    (s.deliverToScanner t).timers = s.timers := rfl
@[simp] theorem State.deliverToScanner_lines (s : State) (t : Trigger) : (s.deliverToScanner t).lines = s.lines := rfl
@[simp] theorem State.deliverToScanner_ports (s : State) (t : Trigger) : (s.deliverToScanner t).ports = s.ports := rfl
@[simp] theorem State.deliverToScanner_config (s : State) (t : Trigger) :
    (s.deliverToScanner t).config = s.config := rfl
@[simp] theorem State.deliverToScanner_pending (s : State) (t : Trigger) :
    (s.deliverToScanner t).pending = s.pending := rfl

end Sys2Proof.Machine
end

