-- ==== Sys2Proof/Laws/Ops.lean ====
section
/-! SUPPORT. Laws/Ops.lean: for each shared operation, once, everything it can do. -/

namespace Sys2Proof.Machine

/-! ### One value per port -/

@[simp] theorem PerPort.get_set {α : Type} (v : PerPort α) (p q : Port) (x : α) :
    (v.set p x).get q = if q = p then x else v.get q := by
  cases p <;> cases q <;> rfl

@[simp] theorem PerPort.get_map {α β : Type} (f : Port → α → β) (v : PerPort α) (p : Port) :
    (v.map f).get p = f p (v.get p) := by
  cases p <;> rfl

@[simp] theorem PerPort.get_all {α : Type} (x : α) (p : Port) : (PerPort.all x).get p = x := by
  cases p <;> rfl

theorem PerPort.ext_get {α : Type} {v w : PerPort α} (h : ∀ p, v.get p = w.get p) : v = w := by
  have ha := h .a
  have hb := h .b
  have hc := h .c
  have hd := h .d
  cases v
  cases w
  simp_all [PerPort.get]

@[simp] theorem PerPort.set_get_self {α : Type} (v : PerPort α) (p : Port) : v.set p (v.get p) = v := by
  cases p <;> rfl

/-! ### Tables -/

@[simp] theorem mapTable_getElem {α β : Type} {n : Nat} (f : α → β) (v : Vector α n) (i : Nat) (h : i < n) :
    (mapTable f v)[i] = f v[i] := by
  simp [mapTable, Vector.getElem_mk]

@[simp] theorem zipTable_getElem {α β γ : Type} {n : Nat} (f : α → β → γ) (v : Vector α n) (w : Vector β n) (i : Nat)
    (h : i < n) : (zipTable f v w)[i] = f v[i] w[i] := by
  simp [zipTable, Vector.getElem_mk]

theorem mem_entriesOf {α : Type} {n : Nat} (v : Vector α n) (i : Fin n) (x : α) :
    (i, x) ∈ entriesOf v ↔ v[i.val] = x := by
  simp only [entriesOf, List.mem_iff_getElem, List.getElem_zip, List.length_zip, List.length_finRange,
    Vector.length_toList, Nat.min_self, Prod.mk.injEq, List.getElem_finRange, Vector.getElem_toList]
  constructor
  · rintro ⟨k, hk, hi, hx⟩
    subst hi
    exact hx
  · intro h
    exact ⟨i.val, i.isLt, rfl, h⟩

/-! ### Point slots and order slots -/

@[simp] theorem State.slot_setSlot (s : State) (i j : PointIx) (x : Option Point) :
    (s.setSlot i x).slot j = if j = i then x else s.slot j := by
  simp only [State.slot, State.setSlot_points, Vector.getElem_set, Fin.ext_iff, eq_comm (a := i.val)]

@[simp] theorem State.slot_modifySlot (s : State) (i j : PointIx) (f : Point → Point) :
    (s.modifySlot i f).slot j = if j = i then (s.slot i).map f else s.slot j := by
  simp [State.modifySlot]

@[simp] theorem State.slot_mapPoints (s : State) (f : Point → Point) (i : PointIx) :
    (s.mapPoints f).slot i = (s.slot i).map f := by
  simp [State.slot]

@[simp] theorem State.order_setOrder (s : State) (n m : OrderIx) (o : Option Order) :
    (s.setOrder n o).order m = if m = n then o else s.order m := by
  simp only [State.order, State.setOrder_orders, Vector.getElem_set, Fin.ext_iff, eq_comm (a := n.val)]

@[simp] theorem State.order_modifyOrder (s : State) (n m : OrderIx) (f : Order → Order) :
    (s.modifyOrder n f).order m = if m = n then (s.order n).map f else s.order m := by
  simp [State.modifyOrder]

/-- Two states with the same points have the same slots. -/
theorem State.slot_congr {s t : State} (h : t.points = s.points) (i : PointIx) : t.slot i = s.slot i := by
  simp [State.slot, h]

/-- Two states with the same orders have the same order slots. -/
theorem State.order_congr {s t : State} (h : t.orders = s.orders) (n : OrderIx) : t.order n = s.order n := by
  simp [State.order, h]

/-- The points of two states are the same when every slot is. -/
theorem State.points_ext {s t : State} (h : ∀ i, t.slot i = s.slot i) : t.points = s.points := by
  apply Vector.ext
  intro i hi
  exact h ⟨i, hi⟩

/-! ### Events -/

/-- An event that is due has its effect, and the attention lines follow. -/
theorem event_due {s : State} (hheld : s.held = false) (effect : State → State) :
    event true s effect = .next (effect s).settle := by
  simp [event, hheld]

/-- A request that is due has its effect, and the attention lines follow. -/
theorem onRequest_due {s : State} {p : Port} {r : Request} (h : s.Due p r) (effect : State → State) :
    onRequest p r s effect = .next (effect s).settle := by
  simp [onRequest, event, h.1, h.2]

/-- A request that is not due is passed over. -/
theorem onRequest_not_due {s : State} {p : Port} {r : Request} (h : ¬ s.Due p r) (effect : State → State) :
    onRequest p r s effect = .next s := by
  unfold onRequest event
  by_cases hheld : s.held = true
  · simp [hheld]
  · have : s.presented p ≠ some r := fun hr => h ⟨by simpa using hheld, hr⟩
    simp [this]

/-- An event keeps whatever its effect and the attention lines keep. -/
theorem event_keeps {due : Bool} {s t : State} {effect : State → State} {P : State → Prop} (hs : P s)
    (he : s.held = false → due = true → P (effect s).settle) (h : event due s effect = .next t) : P t := by
  unfold event at h
  split at h
  · injection h with h
    exact h ▸ hs
  · rename_i hcond
    injection h with h
    simp only [Bool.or_eq_true, Bool.not_eq_true', not_or, Bool.not_eq_true, Bool.not_eq_false] at hcond
    exact h ▸ he hcond.1 hcond.2

/-- A request's event keeps whatever its effect and the attention lines keep. -/
theorem onRequest_keeps {p : Port} {r : Request} {s t : State} {effect : State → State} {P : State → Prop} (hs : P s)
    (he : s.Due p r → P (effect s).settle) (h : onRequest p r s effect = .next t) : P t :=
  event_keeps hs (fun hheld hdue => he ⟨hheld, by simpa using hdue⟩) h

/-! ### Answers -/

/-- An effect that leaves the ports alone, answered: the port's oldest ACCEPTED entry is answered. -/
theorem replied_answer {s w : State} (hw : w.ports = s.ports) (p : Port) (status : Status) (body : Body) :
    Replied s (w.answer p status body).settle p status body := by
  intro q
  simp only [State.settle_ports, State.answer_ports, PerPort.get_map, PerPort.get_set, hw, State.settle_notices,
    State.answer_notices]
  by_cases h : q = p
  · subst h
    simp [attnLevel]
  · simp [h, attnLevel]

/-- A command whose effect is an answer alone. -/
theorem onlyReplies_of {c : Instr} {s : State} {p : Port} {status : Status} {body : Body}
    (h : exec c s = .next (s.answer p status body).settle) : OnlyReplies c s p status body :=
  ⟨_, h, replied_answer rfl p status body, rfl⟩

/-! ### Causes -/

/-- The state of a subject is read from the points and the orders. -/
theorem State.subjectState_congr {s t : State} (hp : t.points = s.points) (ho : t.orders = s.orders) (x : Subject) :
    t.subjectState x = s.subjectState x := by
  cases x <;> simp [State.subjectState, State.slot, State.order, hp, ho]

/-- Taking causes reads the other state through the states of subjects alone. -/
theorem NoticeUnit.takeAll_congr {s t : State} (h : ∀ x, t.subjectState x = s.subjectState x) (u : NoticeUnit)
    (cs : List (Subject × Cause)) : u.takeAll t cs = u.takeAll s cs := by
  unfold NoticeUnit.takeAll
  simp only [h]

theorem raisedFor_nil (q : Port) : raisedFor q [] = [] := rfl

theorem raisedFor_append (q : Port) (rs rs' : List Raise) : raisedFor q (rs ++ rs') = raisedFor q rs ++ raisedFor q rs' := by
  simp [raisedFor]

theorem raisedFor_cons (q : Port) (r : Raise) (rs : List Raise) :
    raisedFor q (r :: rs) = if r.port = q then (r.subject, r.cause) :: raisedFor q rs else raisedFor q rs := by
  by_cases h : r.port = q <;> simp [raisedFor, h]

/-- The causes of a list that are for one port are those that name it. -/
theorem mem_raisedFor (q : Port) (rs : List Raise) (x : Subject) (c : Cause) : (x, c) ∈ raisedFor q rs ↔ ⟨q, x, c⟩ ∈ rs := by
  simp only [raisedFor, List.mem_map, List.mem_filter, decide_eq_true_eq, Prod.mk.injEq]
  constructor
  · rintro ⟨⟨port, subject, cause⟩, ⟨h1, h2⟩, h3, h4⟩
    dsimp only at h2 h3 h4
    subst h2 h3 h4
    exact h1
  · exact fun h => ⟨_, ⟨h, rfl⟩, rfl, rfl⟩

/-- The entries of a table, index by index. -/
theorem entriesOf_eq {α : Type} {n : Nat} (v : Vector α n) : entriesOf v = (List.finRange n).map fun i => (i, v[i.val]) := by
  apply List.ext_getElem
  · simp [entriesOf]
  · intro k h1 h2
    simp [entriesOf]

/-- The causes for one port of causes gathered item by item. -/
theorem raisedFor_flatMap {α : Type} (q : Port) (l : List α) (f : α → List Raise) :
    raisedFor q (l.flatMap f) = l.flatMap fun x => raisedFor q (f x) := by
  induction l with
  | nil => rfl
  | cons a l ih => rw [List.flatMap_cons, raisedFor_append, ih, List.flatMap_cons]

/-- One result for each element that passes is a filter and a map. -/
theorem flatMap_ite_singleton {α β : Type} (l : List α) (P : α → Bool) (f : α → β) :
    (l.flatMap fun x => if P x then [f x] else []) = (l.filter P).map f := by
  induction l with
  | nil => rfl
  | cons a l ih => by_cases h : P a = true <;> simp [h, ih]

/-- A handover raises CLAIM_GRANTED for the port at the head of the waiter list (R46). -/
theorem raisedFor_heirRaises (q : Port) (pt : Point) (i : PointIx) :
    raisedFor q (pt.heirRaises i) = if pt.waiting.head? = some q then [(.point i, .claimGranted)] else [] := by
  unfold Point.heirRaises Point.heir Point.waiting
  cases pt.waiters with
  | nil => simp [raisedFor]
  | cons w rest => by_cases h : w.port = q <;> simp [raisedFor, h]

/-- Causes gathered slot by slot, each slot giving CLAIM_GRANTED to at most one port. -/
theorem raisedFor_entries (s : State) (q : Port) (f : PointIx → Point → List Raise) (heir : Point → Option Port)
    (h : ∀ i pt, raisedFor q (f i pt) = if heir pt = some q then [(.point i, .claimGranted)] else []) :
    raisedFor q ((entriesOf s.points).flatMap fun (i, x) =>
      match x with
      | some pt => f i pt
      | none => []) = s.grantsFor q heir := by
  rw [entriesOf_eq, List.flatMap_map, raisedFor_flatMap]
  unfold State.grantsFor
  rw [← flatMap_ite_singleton]
  congr 1; funext i
  show raisedFor q (match s.slot i with | some pt => f i pt | none => []) = _
  cases s.slot i with
  | none => simp [raisedFor]
  | some pt => simp [h]

/-- The causes of releasing every point a party holds: one CLAIM_GRANTED for each head waiter, in ascending point order
(R47). -/
theorem raisedFor_releaseRaises (s : State) (q : Port) (w : Party) :
    raisedFor q (s.releaseRaises w) = s.grantsFor q fun pt => if pt.heldBy w then pt.waiting.head? else none := by
  refine raisedFor_entries s q (fun i pt => if pt.heldBy w then pt.heirRaises i else []) _ fun i pt => ?_
  by_cases h : pt.heldBy w = true
  · simp only [h, if_true]; exact raisedFor_heirRaises q pt i
  · simp [h, raisedFor]

/-- The causes of a port reset: one CLAIM_GRANTED for the first other waiter of each point the port held (R47, R56). -/
theorem raisedFor_portResetRaises (s : State) (q p : Port) :
    raisedFor q (s.portResetRaises p) =
      s.grantsFor q fun pt => if pt.heldBy (.port p) then (pt.waiting.filter fun w => w ≠ p).head? else none := by
  refine raisedFor_entries s q (fun i pt =>
    if pt.heldBy (.port p) then Point.heirRaises { pt with waiters := pt.waiters.filter fun w => w.port ≠ p } i else []) _
    fun i pt => ?_
  by_cases h : pt.heldBy (.port p) = true
  · simp only [h, if_true]
    rw [raisedFor_heirRaises]
    have : Point.waiting { pt with waiters := pt.waiters.filter fun w => w.port ≠ p } = pt.waiting.filter fun w => w ≠ p := by
      simp only [Point.waiting, List.filter_map]; rfl
    rw [this]
  · simp [h, raisedFor]

/-- One port among the subscribers of a point raises at most once. -/
theorem raisedFor_subscribers (s : State) (i : PointIx) (q : Port) (c : Cause) :
    raisedFor q ((s.subscribers i).map fun p => ⟨p, .point i, c⟩) = if (s.sub q i).isSome then [(.point i, c)] else [] := by
  unfold State.subscribers Port.list
  cases q <;> cases h1 : (s.sub .a i).isSome <;> cases h2 : (s.sub .b i).isSome <;> cases h3 : (s.sub .c i).isSome <;>
    cases h4 : (s.sub .d i).isSome <;> simp [raisedFor, h1, h2, h3, h4]

/-- The causes of ageing at a tick: QUALITY for each point that becomes STALE and that the port subscribes to, in ascending
point order (R77, R97). -/
theorem raisedFor_staleRaises (s : State) (q : Port) :
    raisedFor q s.staleRaises =
      ((List.finRange 512).filter fun i => s.goesStale i && (s.sub q i).isSome).map fun i => (.point i, .quality) := by
  unfold State.staleRaises
  rw [entriesOf_eq, List.flatMap_map, raisedFor_flatMap, ← flatMap_ite_singleton]
  congr 1; funext i
  show raisedFor q (if s.goesStale i then _ else []) = _
  cases s.goesStale i with
  | false => simp [raisedFor]
  | true => simp only [if_true, Bool.true_and]; exact raisedFor_subscribers s i q .quality

/-- The causes of a tick of the claim arbiter at one point, for one port (R50, R51). -/
theorem raisedFor_tickRaises (q : Port) (pt : Point) (i : PointIx) :
    raisedFor q (pt.tickRaises i) =
      (if pt.lapsing = some q then [(.point i, .claimLapsed)] else []) ++
        (if pt.lapsing.isSome ∧ pt.waiting.head? = some q then [(.point i, .claimGranted)] else []) ++
        (pt.expiring.filter fun w => w = q).map fun _ => (.point i, .waitExpired) := by
  unfold Point.tickRaises
  rw [raisedFor_append]
  congr 1
  · cases h : pt.lapsing with
    | none => simp [raisedFor]
    | some p =>
      simp only [raisedFor_cons, raisedFor_heirRaises, Option.some.injEq, Option.isSome_some, true_and]
      by_cases h2 : p = q <;> simp [h2]
  · generalize pt.expiring = l
    induction l with
    | nil => rfl
    | cons p l ih => rw [List.map_cons, raisedFor_cons, ih]; by_cases h : p = q <;> simp [h]

/-- The causes of a tick of the claim arbiter for one port, in ascending point order (R50, R51, R81). -/
theorem raisedFor_arbiterRaises (s : State) (q : Port) :
    raisedFor q s.arbiterRaises =
      (List.finRange 512).flatMap fun i => (s.slot i).toList.flatMap fun pt => raisedFor q (pt.tickRaises i) := by
  unfold State.arbiterRaises
  rw [entriesOf_eq, List.flatMap_map, raisedFor_flatMap]
  congr 1; funext i
  show raisedFor q (match s.slot i with | some pt => pt.tickRaises i | none => []) = _
  cases s.slot i with
  | none => rfl
  | some pt => simp

/-- Raising causes changes the notice units alone: each takes its own, in order. -/
theorem State.raiseAll_eq (s : State) (rs : List Raise) :
    s.raiseAll rs = { s with notices := s.notices.map fun q u => u.takeAll s (raisedFor q rs) } := by
  induction rs generalizing s with
  | nil =>
    have : (s.notices.map fun q u => u.takeAll s (raisedFor q [])) = s.notices := PerPort.ext_get fun q => by
      simp [raisedFor_nil, NoticeUnit.takeAll]
    simp [State.raiseAll, this]
  | cons r rs ih =>
    have hstep : s.raiseAll (r :: rs) = (s.raise r.port r.subject r.cause).raiseAll rs := rfl
    rw [hstep, ih]
    have : ((s.raise r.port r.subject r.cause).notices.map fun q u =>
          u.takeAll (s.raise r.port r.subject r.cause) (raisedFor q rs)) =
        s.notices.map fun q u => u.takeAll s (raisedFor q (r :: rs)) := PerPort.ext_get fun q => by
      simp only [PerPort.get_map, State.raise_notices, PerPort.get_set, raisedFor_cons]
      rw [NoticeUnit.takeAll_congr (s := s) (t := s.raise r.port r.subject r.cause)
        (State.subjectState_congr rfl rfl)]
      by_cases h : q = r.port
      · subst h
        simp [NoticeUnit.takeAll]
      · simp [h, Ne.symm h]
    rw [this]
    rfl

/-! ### Triggers -/

/-- The executor's choice changes the orders and the executor alone. -/
theorem State.startRun_eq (s : State) :
    s.startRun = { s with orders := s.startRun.orders, executor := s.startRun.executor } := by
  unfold State.startRun
  split
  · rfl
  · split <;> rfl

/-- The executor's choice reads the orders and the executor alone. -/
theorem State.startRun_congr {s t : State} (ho : t.orders = s.orders) (he : t.executor = s.executor) :
    t.startRun.orders = s.startRun.orders ∧ t.startRun.executor = s.startRun.executor := by
  have hl : t.lowestReady = s.lowestReady := by simp [State.lowestReady, ho]
  unfold State.startRun
  rw [he, hl]
  split
  · exact ⟨ho, he⟩
  · split
    · exact ⟨ho, he⟩
    · simp [State.order, ho]

/-- A trigger delivered changes the orders, the executor and the scanner alone. -/
theorem State.deliver_eq (s : State) (t : Trigger) :
    s.deliver t =
      { s with orders := (s.deliver t).orders, executor := (s.deliver t).executor,
               scanner := s.scanner.map fun sc => if sc.trigger = t then sc.accept else sc } := by
  unfold State.deliver State.deliverToOrders
  rw [State.startRun_eq]
  rfl

/-- A trigger's delivery to the orders reads the orders and the executor alone. -/
theorem State.deliver_congr {s t : State} (ho : t.orders = s.orders) (he : t.executor = s.executor) (tr : Trigger) :
    (t.deliver tr).orders = (s.deliver tr).orders ∧ (t.deliver tr).executor = (s.deliver tr).executor := by
  unfold State.deliver State.deliverToOrders
  apply State.startRun_congr
  · simp [ho]
  · simp [he]

/-- A trigger's delivery to the orders alone changes the orders and the executor alone. -/
theorem State.deliverToOrders_eq (s : State) (t : Trigger) :
    s.deliverToOrders t =
      { s with orders := (s.deliverToOrders t).orders, executor := (s.deliverToOrders t).executor } := by
  unfold State.deliverToOrders
  rw [State.startRun_eq]

/-! ### Writes -/

/-- A write that takes effect: the point, the subscriptions' references, the lines bound to it, and the trigger's consumers. -/
theorem State.store_eq (s : State) (i : PointIx) (pt : Point) (v : Word) (q : Quality) :
    s.store i pt v q =
      { s with
        points := s.points.set i.val (some (pt.written v q))
        notices := (s.followSubs i pt.defn.kind v).notices
        outputs := ((s.setSlot i (some (pt.written v q))).driveLines fun j => j = i).outputs
        orders := (s.deliver (.point i)).orders
        executor := (s.deliver (.point i)).executor
        scanner := (s.deliver (.point i)).scanner } := by
  unfold State.store
  rw [State.deliver_eq]
  have h := State.deliver_congr (s := s)
    (t := ((s.setSlot i (some (pt.written v q))).followSubs i pt.defn.kind v).driveLines fun j => j = i) rfl rfl (.point i)
  rw [h.1, h.2, State.deliver_eq s (.point i)]
  rfl

/-- A point released with handover: the slot, the count of the port, and CLAIM_GRANTED for the heir. -/
theorem State.releasePoint_eq (s : State) (p : Port) (i : PointIx) (pt : Point) (h : s.slot i = some pt) :
    s.releasePoint p i =
      { s with
        points := s.points.set i.val (some pt.release)
        counts := s.counts.set p (s.counts.get p - 1)
        notices := s.notices.map fun q u =>
          u.takeAll (s.setSlot i (some pt.release)) (raisedFor q (pt.heirRaises i)) } := by
  unfold State.releasePoint
  rw [h]
  simp only [State.raiseAll_eq]
  congr 1

end Sys2Proof.Machine
end

