-- ==== Sys2Proof/Laws/Frames.lean ====
section
/-! SUPPORT. Laws/Frames.lean: the fields that each shared operation leaves alone. -/

namespace Sys2Proof.Machine

/-- A write with its causes: the causes are taken by the notice units, each its own. -/
theorem State.storeAndRaise_eq (s : State) (i : PointIx) (pt : Point) (v : Word) (q : Quality) (c : Bool) :
    s.storeAndRaise i pt v q c =
      { s.store i pt v q with
        notices := (s.store i pt v q).notices.map fun p u =>
          u.takeAll (s.store i pt v q) (raisedFor p (s.writeRaises i pt v q c)) } := by
  unfold State.storeAndRaise
  rw [State.raiseAll_eq]

/-- Granting points to an internal holder changes the points alone. -/
theorem State.grantInternal_eq (s : State) (h : Holder) (dests : List PointIx) :
    s.grantInternal h dests = { s with points := (s.grantInternal h dests).points } := by
  unfold State.grantInternal
  induction dests generalizing s with
  | nil => rfl
  | cons i rest ih =>
    rw [List.foldl_cons, ih]
    rfl

/-! ### raiseAll -/

@[simp] theorem State.raiseAll_held (s : State) (rs : List Raise) :
    (s.raiseAll rs).held = s.held := by rw [State.raiseAll_eq]
@[simp] theorem State.raiseAll_points (s : State) (rs : List Raise) :
    (s.raiseAll rs).points = s.points := by rw [State.raiseAll_eq]
@[simp] theorem State.raiseAll_epoch (s : State) (rs : List Raise) :
    (s.raiseAll rs).epoch = s.epoch := by rw [State.raiseAll_eq]
@[simp] theorem State.raiseAll_counts (s : State) (rs : List Raise) :
    (s.raiseAll rs).counts = s.counts := by rw [State.raiseAll_eq]
@[simp] theorem State.raiseAll_batches (s : State) (rs : List Raise) :
    (s.raiseAll rs).batches = s.batches := by rw [State.raiseAll_eq]
@[simp] theorem State.raiseAll_outputs (s : State) (rs : List Raise) :
    (s.raiseAll rs).outputs = s.outputs := by rw [State.raiseAll_eq]
@[simp] theorem State.raiseAll_orders (s : State) (rs : List Raise) :
    (s.raiseAll rs).orders = s.orders := by rw [State.raiseAll_eq]
@[simp] theorem State.raiseAll_executor (s : State) (rs : List Raise) :
    (s.raiseAll rs).executor = s.executor := by rw [State.raiseAll_eq]
@[simp] theorem State.raiseAll_scanner (s : State) (rs : List Raise) :
    (s.raiseAll rs).scanner = s.scanner := by rw [State.raiseAll_eq]
@[simp] theorem State.raiseAll_tickGen (s : State) (rs : List Raise) :
    (s.raiseAll rs).tickGen = s.tickGen := by rw [State.raiseAll_eq]
@[simp] theorem State.raiseAll_timers (s : State) (rs : List Raise) :
    (s.raiseAll rs).timers = s.timers := by rw [State.raiseAll_eq]
@[simp] theorem State.raiseAll_lines (s : State) (rs : List Raise) :
    (s.raiseAll rs).lines = s.lines := by rw [State.raiseAll_eq]
@[simp] theorem State.raiseAll_ports (s : State) (rs : List Raise) :
    (s.raiseAll rs).ports = s.ports := by rw [State.raiseAll_eq]
@[simp] theorem State.raiseAll_config (s : State) (rs : List Raise) :
    (s.raiseAll rs).config = s.config := by rw [State.raiseAll_eq]
@[simp] theorem State.raiseAll_pending (s : State) (rs : List Raise) :
    (s.raiseAll rs).pending = s.pending := by rw [State.raiseAll_eq]

/-! ### startRun -/

@[simp] theorem State.startRun_held (s : State) : s.startRun.held = s.held := by rw [State.startRun_eq]
@[simp] theorem State.startRun_points (s : State) : s.startRun.points = s.points := by rw [State.startRun_eq]
@[simp] theorem State.startRun_epoch (s : State) : s.startRun.epoch = s.epoch := by rw [State.startRun_eq]
@[simp] theorem State.startRun_counts (s : State) : s.startRun.counts = s.counts := by rw [State.startRun_eq]
@[simp] theorem State.startRun_batches (s : State) : s.startRun.batches = s.batches := by rw [State.startRun_eq]
@[simp] theorem State.startRun_notices (s : State) : s.startRun.notices = s.notices := by rw [State.startRun_eq]
@[simp] theorem State.startRun_outputs (s : State) : s.startRun.outputs = s.outputs := by rw [State.startRun_eq]
@[simp] theorem State.startRun_scanner (s : State) : s.startRun.scanner = s.scanner := by rw [State.startRun_eq]
@[simp] theorem State.startRun_tickGen (s : State) : s.startRun.tickGen = s.tickGen := by rw [State.startRun_eq]
@[simp] theorem State.startRun_timers (s : State) : s.startRun.timers = s.timers := by rw [State.startRun_eq]
@[simp] theorem State.startRun_lines (s : State) : s.startRun.lines = s.lines := by rw [State.startRun_eq]
@[simp] theorem State.startRun_ports (s : State) : s.startRun.ports = s.ports := by rw [State.startRun_eq]
@[simp] theorem State.startRun_config (s : State) : s.startRun.config = s.config := by rw [State.startRun_eq]
@[simp] theorem State.startRun_pending (s : State) : s.startRun.pending = s.pending := by rw [State.startRun_eq]

/-! ### deliverToOrders -/

@[simp] theorem State.deliverToOrders_held (s : State) (t : Trigger) :
    (s.deliverToOrders t).held = s.held := by rw [State.deliverToOrders_eq]
@[simp] theorem State.deliverToOrders_points (s : State) (t : Trigger) :
    (s.deliverToOrders t).points = s.points := by rw [State.deliverToOrders_eq]
@[simp] theorem State.deliverToOrders_epoch (s : State) (t : Trigger) :
    (s.deliverToOrders t).epoch = s.epoch := by rw [State.deliverToOrders_eq]
@[simp] theorem State.deliverToOrders_counts (s : State) (t : Trigger) :
    (s.deliverToOrders t).counts = s.counts := by rw [State.deliverToOrders_eq]
@[simp] theorem State.deliverToOrders_batches (s : State) (t : Trigger) :
    (s.deliverToOrders t).batches = s.batches := by rw [State.deliverToOrders_eq]
@[simp] theorem State.deliverToOrders_notices (s : State) (t : Trigger) :
    (s.deliverToOrders t).notices = s.notices := by rw [State.deliverToOrders_eq]
@[simp] theorem State.deliverToOrders_outputs (s : State) (t : Trigger) :
    (s.deliverToOrders t).outputs = s.outputs := by rw [State.deliverToOrders_eq]
@[simp] theorem State.deliverToOrders_scanner (s : State) (t : Trigger) :
    (s.deliverToOrders t).scanner = s.scanner := by rw [State.deliverToOrders_eq]
@[simp] theorem State.deliverToOrders_tickGen (s : State) (t : Trigger) :
    (s.deliverToOrders t).tickGen = s.tickGen := by rw [State.deliverToOrders_eq]
@[simp] theorem State.deliverToOrders_timers (s : State) (t : Trigger) :
    (s.deliverToOrders t).timers = s.timers := by rw [State.deliverToOrders_eq]
@[simp] theorem State.deliverToOrders_lines (s : State) (t : Trigger) :
    (s.deliverToOrders t).lines = s.lines := by rw [State.deliverToOrders_eq]
@[simp] theorem State.deliverToOrders_ports (s : State) (t : Trigger) :
    (s.deliverToOrders t).ports = s.ports := by rw [State.deliverToOrders_eq]
@[simp] theorem State.deliverToOrders_config (s : State) (t : Trigger) :
    (s.deliverToOrders t).config = s.config := by rw [State.deliverToOrders_eq]
@[simp] theorem State.deliverToOrders_pending (s : State) (t : Trigger) :
    (s.deliverToOrders t).pending = s.pending := by rw [State.deliverToOrders_eq]

/-! ### deliver -/

@[simp] theorem State.deliver_held (s : State) (t : Trigger) : (s.deliver t).held = s.held := by rw [State.deliver_eq]
@[simp] theorem State.deliver_points (s : State) (t : Trigger) :
    (s.deliver t).points = s.points := by rw [State.deliver_eq]
@[simp] theorem State.deliver_epoch (s : State) (t : Trigger) :
    (s.deliver t).epoch = s.epoch := by rw [State.deliver_eq]
@[simp] theorem State.deliver_counts (s : State) (t : Trigger) :
    (s.deliver t).counts = s.counts := by rw [State.deliver_eq]
@[simp] theorem State.deliver_batches (s : State) (t : Trigger) :
    (s.deliver t).batches = s.batches := by rw [State.deliver_eq]
@[simp] theorem State.deliver_notices (s : State) (t : Trigger) :
    (s.deliver t).notices = s.notices := by rw [State.deliver_eq]
@[simp] theorem State.deliver_outputs (s : State) (t : Trigger) :
    (s.deliver t).outputs = s.outputs := by rw [State.deliver_eq]
@[simp] theorem State.deliver_tickGen (s : State) (t : Trigger) :
    (s.deliver t).tickGen = s.tickGen := by rw [State.deliver_eq]
@[simp] theorem State.deliver_timers (s : State) (t : Trigger) :
    (s.deliver t).timers = s.timers := by rw [State.deliver_eq]
@[simp] theorem State.deliver_lines (s : State) (t : Trigger) :
    (s.deliver t).lines = s.lines := by rw [State.deliver_eq]
@[simp] theorem State.deliver_ports (s : State) (t : Trigger) :
    (s.deliver t).ports = s.ports := by rw [State.deliver_eq]
@[simp] theorem State.deliver_config (s : State) (t : Trigger) :
    (s.deliver t).config = s.config := by rw [State.deliver_eq]
@[simp] theorem State.deliver_pending (s : State) (t : Trigger) :
    (s.deliver t).pending = s.pending := by rw [State.deliver_eq]

/-! ### store -/

@[simp] theorem State.store_held (s : State) (i : PointIx) (pt : Point) (v : Word) (q : Quality) :
    (s.store i pt v q).held = s.held := by rw [State.store_eq]
@[simp] theorem State.store_epoch (s : State) (i : PointIx) (pt : Point) (v : Word) (q : Quality) :
    (s.store i pt v q).epoch = s.epoch := by rw [State.store_eq]
@[simp] theorem State.store_counts (s : State) (i : PointIx) (pt : Point) (v : Word) (q : Quality) :
    (s.store i pt v q).counts = s.counts := by rw [State.store_eq]
@[simp] theorem State.store_batches (s : State) (i : PointIx) (pt : Point) (v : Word) (q : Quality) :
    (s.store i pt v q).batches = s.batches := by rw [State.store_eq]
@[simp] theorem State.store_tickGen (s : State) (i : PointIx) (pt : Point) (v : Word) (q : Quality) :
    (s.store i pt v q).tickGen = s.tickGen := by rw [State.store_eq]
@[simp] theorem State.store_timers (s : State) (i : PointIx) (pt : Point) (v : Word) (q : Quality) :
    (s.store i pt v q).timers = s.timers := by rw [State.store_eq]
@[simp] theorem State.store_lines (s : State) (i : PointIx) (pt : Point) (v : Word) (q : Quality) :
    (s.store i pt v q).lines = s.lines := by rw [State.store_eq]
@[simp] theorem State.store_ports (s : State) (i : PointIx) (pt : Point) (v : Word) (q : Quality) :
    (s.store i pt v q).ports = s.ports := by rw [State.store_eq]
@[simp] theorem State.store_config (s : State) (i : PointIx) (pt : Point) (v : Word) (q : Quality) :
    (s.store i pt v q).config = s.config := by rw [State.store_eq]
@[simp] theorem State.store_pending (s : State) (i : PointIx) (pt : Point) (v : Word) (q : Quality) :
    (s.store i pt v q).pending = s.pending := by rw [State.store_eq]

/-! ### storeAndRaise -/

@[simp] theorem State.storeAndRaise_held (s : State) (i : PointIx) (pt : Point) (v : Word) (q : Quality) (c : Bool) :
    (s.storeAndRaise i pt v q c).held = s.held := by simp [State.storeAndRaise]
@[simp] theorem State.storeAndRaise_epoch (s : State) (i : PointIx) (pt : Point) (v : Word) (q : Quality) (c : Bool) :
    (s.storeAndRaise i pt v q c).epoch = s.epoch := by simp [State.storeAndRaise]
@[simp] theorem State.storeAndRaise_counts (s : State) (i : PointIx) (pt : Point) (v : Word) (q : Quality) (c : Bool) :
    (s.storeAndRaise i pt v q c).counts = s.counts := by simp [State.storeAndRaise]
@[simp] theorem State.storeAndRaise_batches (s : State) (i : PointIx) (pt : Point) (v : Word) (q : Quality) (c : Bool) :
    (s.storeAndRaise i pt v q c).batches = s.batches := by simp [State.storeAndRaise]
@[simp] theorem State.storeAndRaise_tickGen (s : State) (i : PointIx) (pt : Point) (v : Word) (q : Quality) (c : Bool) :
    (s.storeAndRaise i pt v q c).tickGen = s.tickGen := by simp [State.storeAndRaise]
@[simp] theorem State.storeAndRaise_timers (s : State) (i : PointIx) (pt : Point) (v : Word) (q : Quality) (c : Bool) :
    (s.storeAndRaise i pt v q c).timers = s.timers := by simp [State.storeAndRaise]
@[simp] theorem State.storeAndRaise_lines (s : State) (i : PointIx) (pt : Point) (v : Word) (q : Quality) (c : Bool) :
    (s.storeAndRaise i pt v q c).lines = s.lines := by simp [State.storeAndRaise]
@[simp] theorem State.storeAndRaise_ports (s : State) (i : PointIx) (pt : Point) (v : Word) (q : Quality) (c : Bool) :
    (s.storeAndRaise i pt v q c).ports = s.ports := by simp [State.storeAndRaise]
@[simp] theorem State.storeAndRaise_config (s : State) (i : PointIx) (pt : Point) (v : Word) (q : Quality) (c : Bool) :
    (s.storeAndRaise i pt v q c).config = s.config := by simp [State.storeAndRaise]
@[simp] theorem State.storeAndRaise_pending (s : State) (i : PointIx) (pt : Point) (v : Word) (q : Quality) (c : Bool) :
    (s.storeAndRaise i pt v q c).pending = s.pending := by simp [State.storeAndRaise]

/-! ### releasePoint -/

@[simp] theorem State.releasePoint_held (s : State) (p : Port) (i : PointIx) : (s.releasePoint p i).held = s.held := by
  unfold State.releasePoint
  split <;> simp
@[simp] theorem State.releasePoint_epoch (s : State) (p : Port) (i : PointIx) :
    (s.releasePoint p i).epoch = s.epoch := by
  unfold State.releasePoint
  split <;> simp
@[simp] theorem State.releasePoint_batches (s : State) (p : Port) (i : PointIx) :
    (s.releasePoint p i).batches = s.batches := by
  unfold State.releasePoint
  split <;> simp
@[simp] theorem State.releasePoint_outputs (s : State) (p : Port) (i : PointIx) :
    (s.releasePoint p i).outputs = s.outputs := by
  unfold State.releasePoint
  split <;> simp
@[simp] theorem State.releasePoint_orders (s : State) (p : Port) (i : PointIx) :
    (s.releasePoint p i).orders = s.orders := by
  unfold State.releasePoint
  split <;> simp
@[simp] theorem State.releasePoint_executor (s : State) (p : Port) (i : PointIx) :
    (s.releasePoint p i).executor = s.executor := by
  unfold State.releasePoint
  split <;> simp
@[simp] theorem State.releasePoint_scanner (s : State) (p : Port) (i : PointIx) :
    (s.releasePoint p i).scanner = s.scanner := by
  unfold State.releasePoint
  split <;> simp
@[simp] theorem State.releasePoint_tickGen (s : State) (p : Port) (i : PointIx) :
    (s.releasePoint p i).tickGen = s.tickGen := by
  unfold State.releasePoint
  split <;> simp
@[simp] theorem State.releasePoint_timers (s : State) (p : Port) (i : PointIx) :
    (s.releasePoint p i).timers = s.timers := by
  unfold State.releasePoint
  split <;> simp
@[simp] theorem State.releasePoint_lines (s : State) (p : Port) (i : PointIx) :
    (s.releasePoint p i).lines = s.lines := by
  unfold State.releasePoint
  split <;> simp
@[simp] theorem State.releasePoint_ports (s : State) (p : Port) (i : PointIx) :
    (s.releasePoint p i).ports = s.ports := by
  unfold State.releasePoint
  split <;> simp
@[simp] theorem State.releasePoint_config (s : State) (p : Port) (i : PointIx) :
    (s.releasePoint p i).config = s.config := by
  unfold State.releasePoint
  split <;> simp
@[simp] theorem State.releasePoint_pending (s : State) (p : Port) (i : PointIx) :
    (s.releasePoint p i).pending = s.pending := by
  unfold State.releasePoint
  split <;> simp

/-! ### portWrite -/

@[simp] theorem State.portWrite_held (s : State) (p : Port) (i : PointIx) (pt : Point) (v : Word) (q : Quality) (c : Bool) :
    (s.portWrite p i pt v q c).held = s.held := by
  unfold State.portWrite
  split <;> simp
@[simp] theorem State.portWrite_epoch (s : State) (p : Port) (i : PointIx) (pt : Point) (v : Word) (q : Quality) (c : Bool) :
    (s.portWrite p i pt v q c).epoch = s.epoch := by
  unfold State.portWrite
  split <;> simp
@[simp] theorem State.portWrite_batches (s : State) (p : Port) (i : PointIx) (pt : Point) (v : Word) (q : Quality) (c : Bool) :
    (s.portWrite p i pt v q c).batches = s.batches := by
  unfold State.portWrite
  split <;> simp
@[simp] theorem State.portWrite_tickGen (s : State) (p : Port) (i : PointIx) (pt : Point) (v : Word) (q : Quality) (c : Bool) :
    (s.portWrite p i pt v q c).tickGen = s.tickGen := by
  unfold State.portWrite
  split <;> simp
@[simp] theorem State.portWrite_timers (s : State) (p : Port) (i : PointIx) (pt : Point) (v : Word) (q : Quality) (c : Bool) :
    (s.portWrite p i pt v q c).timers = s.timers := by
  unfold State.portWrite
  split <;> simp
@[simp] theorem State.portWrite_lines (s : State) (p : Port) (i : PointIx) (pt : Point) (v : Word) (q : Quality) (c : Bool) :
    (s.portWrite p i pt v q c).lines = s.lines := by
  unfold State.portWrite
  split <;> simp
@[simp] theorem State.portWrite_ports (s : State) (p : Port) (i : PointIx) (pt : Point) (v : Word) (q : Quality) (c : Bool) :
    (s.portWrite p i pt v q c).ports = s.ports := by
  unfold State.portWrite
  split <;> simp
@[simp] theorem State.portWrite_config (s : State) (p : Port) (i : PointIx) (pt : Point) (v : Word) (q : Quality) (c : Bool) :
    (s.portWrite p i pt v q c).config = s.config := by
  unfold State.portWrite
  split <;> simp
@[simp] theorem State.portWrite_pending (s : State) (p : Port) (i : PointIx) (pt : Point) (v : Word) (q : Quality) (c : Bool) :
    (s.portWrite p i pt v q c).pending = s.pending := by
  unfold State.portWrite
  split <;> simp

/-! ### releaseHeld -/

@[simp] theorem State.releaseHeld_held (s : State) (w : Party) : (s.releaseHeld w).held = s.held := rfl
@[simp] theorem State.releaseHeld_epoch (s : State) (w : Party) : (s.releaseHeld w).epoch = s.epoch := rfl
@[simp] theorem State.releaseHeld_counts (s : State) (w : Party) : (s.releaseHeld w).counts = s.counts := rfl
@[simp] theorem State.releaseHeld_batches (s : State) (w : Party) : (s.releaseHeld w).batches = s.batches := rfl
@[simp] theorem State.releaseHeld_notices (s : State) (w : Party) : (s.releaseHeld w).notices = s.notices := rfl
@[simp] theorem State.releaseHeld_outputs (s : State) (w : Party) : (s.releaseHeld w).outputs = s.outputs := rfl
@[simp] theorem State.releaseHeld_orders (s : State) (w : Party) : (s.releaseHeld w).orders = s.orders := rfl
@[simp] theorem State.releaseHeld_executor (s : State) (w : Party) : (s.releaseHeld w).executor = s.executor := rfl
@[simp] theorem State.releaseHeld_scanner (s : State) (w : Party) : (s.releaseHeld w).scanner = s.scanner := rfl
@[simp] theorem State.releaseHeld_tickGen (s : State) (w : Party) : (s.releaseHeld w).tickGen = s.tickGen := rfl
@[simp] theorem State.releaseHeld_timers (s : State) (w : Party) : (s.releaseHeld w).timers = s.timers := rfl
@[simp] theorem State.releaseHeld_lines (s : State) (w : Party) : (s.releaseHeld w).lines = s.lines := rfl
@[simp] theorem State.releaseHeld_ports (s : State) (w : Party) : (s.releaseHeld w).ports = s.ports := rfl
@[simp] theorem State.releaseHeld_config (s : State) (w : Party) : (s.releaseHeld w).config = s.config := rfl
@[simp] theorem State.releaseHeld_pending (s : State) (w : Party) : (s.releaseHeld w).pending = s.pending := rfl

/-! ### grantInternal -/

@[simp] theorem State.grantInternal_held (s : State) (h : Holder) (dests : List PointIx) :
    (s.grantInternal h dests).held = s.held := by rw [State.grantInternal_eq]
@[simp] theorem State.grantInternal_epoch (s : State) (h : Holder) (dests : List PointIx) :
    (s.grantInternal h dests).epoch = s.epoch := by rw [State.grantInternal_eq]
@[simp] theorem State.grantInternal_counts (s : State) (h : Holder) (dests : List PointIx) :
    (s.grantInternal h dests).counts = s.counts := by rw [State.grantInternal_eq]
@[simp] theorem State.grantInternal_batches (s : State) (h : Holder) (dests : List PointIx) :
    (s.grantInternal h dests).batches = s.batches := by rw [State.grantInternal_eq]
@[simp] theorem State.grantInternal_notices (s : State) (h : Holder) (dests : List PointIx) :
    (s.grantInternal h dests).notices = s.notices := by rw [State.grantInternal_eq]
@[simp] theorem State.grantInternal_outputs (s : State) (h : Holder) (dests : List PointIx) :
    (s.grantInternal h dests).outputs = s.outputs := by rw [State.grantInternal_eq]
@[simp] theorem State.grantInternal_orders (s : State) (h : Holder) (dests : List PointIx) :
    (s.grantInternal h dests).orders = s.orders := by rw [State.grantInternal_eq]
@[simp] theorem State.grantInternal_executor (s : State) (h : Holder) (dests : List PointIx) :
    (s.grantInternal h dests).executor = s.executor := by rw [State.grantInternal_eq]
@[simp] theorem State.grantInternal_scanner (s : State) (h : Holder) (dests : List PointIx) :
    (s.grantInternal h dests).scanner = s.scanner := by rw [State.grantInternal_eq]
@[simp] theorem State.grantInternal_tickGen (s : State) (h : Holder) (dests : List PointIx) :
    (s.grantInternal h dests).tickGen = s.tickGen := by rw [State.grantInternal_eq]
@[simp] theorem State.grantInternal_timers (s : State) (h : Holder) (dests : List PointIx) :
    (s.grantInternal h dests).timers = s.timers := by rw [State.grantInternal_eq]
@[simp] theorem State.grantInternal_lines (s : State) (h : Holder) (dests : List PointIx) :
    (s.grantInternal h dests).lines = s.lines := by rw [State.grantInternal_eq]
@[simp] theorem State.grantInternal_ports (s : State) (h : Holder) (dests : List PointIx) :
    (s.grantInternal h dests).ports = s.ports := by rw [State.grantInternal_eq]
@[simp] theorem State.grantInternal_config (s : State) (h : Holder) (dests : List PointIx) :
    (s.grantInternal h dests).config = s.config := by rw [State.grantInternal_eq]
@[simp] theorem State.grantInternal_pending (s : State) (h : Holder) (dests : List PointIx) :
    (s.grantInternal h dests).pending = s.pending := by rw [State.grantInternal_eq]

/-! ### slots read through updates of other fields -/

@[simp] theorem State.slot_settle (s : State) (i : PointIx) : s.settle.slot i = s.slot i := by simp [State.slot]
@[simp] theorem State.order_settle (s : State) (k : OrderIx) : s.settle.order k = s.order k := by simp [State.order]
@[simp] theorem State.sub_settle (s : State) (q : Port) (k : PointIx) :
    s.settle.sub q k = s.sub q k := by simp [State.sub]
@[simp] theorem State.slot_answer (s : State) (p : Port) (st : Status) (b : Body) (i : PointIx) :
    (s.answer p st b).slot i = s.slot i := by simp [State.slot]
@[simp] theorem State.order_answer (s : State) (p : Port) (st : Status) (b : Body) (k : OrderIx) :
    (s.answer p st b).order k = s.order k := by simp [State.order]
@[simp] theorem State.sub_answer (s : State) (p : Port) (st : Status) (b : Body) (q : Port) (k : PointIx) :
    (s.answer p st b).sub q k = s.sub q k := by simp [State.sub]
@[simp] theorem State.slot_setPort (s : State) (p : Port) (x : PortState) (i : PointIx) :
    (s.setPort p x).slot i = s.slot i := by simp [State.slot]
@[simp] theorem State.order_setPort (s : State) (p : Port) (x : PortState) (k : OrderIx) :
    (s.setPort p x).order k = s.order k := by simp [State.order]
@[simp] theorem State.sub_setPort (s : State) (p : Port) (x : PortState) (q : Port) (k : PointIx) :
    (s.setPort p x).sub q k = s.sub q k := by simp [State.sub]
@[simp] theorem State.slot_setNotices (s : State) (p : Port) (u : NoticeUnit) (i : PointIx) :
    (s.setNotices p u).slot i = s.slot i := by simp [State.slot]
@[simp] theorem State.order_setNotices (s : State) (p : Port) (u : NoticeUnit) (k : OrderIx) :
    (s.setNotices p u).order k = s.order k := by simp [State.order]
@[simp] theorem State.slot_setBatch (s : State) (p : Port) (b : Option Batch) (i : PointIx) :
    (s.setBatch p b).slot i = s.slot i := by simp [State.slot]
@[simp] theorem State.order_setBatch (s : State) (p : Port) (b : Option Batch) (k : OrderIx) :
    (s.setBatch p b).order k = s.order k := by simp [State.order]
@[simp] theorem State.sub_setBatch (s : State) (p : Port) (b : Option Batch) (q : Port) (k : PointIx) :
    (s.setBatch p b).sub q k = s.sub q k := by simp [State.sub]
@[simp] theorem State.slot_setCount (s : State) (p : Port) (n : Nat) (i : PointIx) :
    (s.setCount p n).slot i = s.slot i := by simp [State.slot]
@[simp] theorem State.order_setCount (s : State) (p : Port) (n : Nat) (k : OrderIx) :
    (s.setCount p n).order k = s.order k := by simp [State.order]
@[simp] theorem State.sub_setCount (s : State) (p : Port) (n : Nat) (q : Port) (k : PointIx) :
    (s.setCount p n).sub q k = s.sub q k := by simp [State.sub]
@[simp] theorem State.slot_raiseAll (s : State) (rs : List Raise) (i : PointIx) :
    (s.raiseAll rs).slot i = s.slot i := by simp [State.slot]
@[simp] theorem State.order_raiseAll (s : State) (rs : List Raise) (k : OrderIx) :
    (s.raiseAll rs).order k = s.order k := by simp [State.order]
@[simp] theorem State.slot_setOrder (s : State) (n : OrderIx) (o : Option Order) (i : PointIx) :
    (s.setOrder n o).slot i = s.slot i := by simp [State.slot]
@[simp] theorem State.sub_setOrder (s : State) (n : OrderIx) (o : Option Order) (q : Port) (k : PointIx) :
    (s.setOrder n o).sub q k = s.sub q k := by simp [State.sub]
@[simp] theorem State.slot_deliver (s : State) (t : Trigger) (i : PointIx) :
    (s.deliver t).slot i = s.slot i := by simp [State.slot]
@[simp] theorem State.sub_deliver (s : State) (t : Trigger) (q : Port) (k : PointIx) :
    (s.deliver t).sub q k = s.sub q k := by simp [State.sub]
@[simp] theorem State.slot_startRun (s : State) (i : PointIx) : s.startRun.slot i = s.slot i := by simp [State.slot]
@[simp] theorem State.sub_startRun (s : State) (q : Port) (k : PointIx) :
    s.startRun.sub q k = s.sub q k := by simp [State.sub]
@[simp] theorem State.order_setSlot (s : State) (j : PointIx) (x : Option Point) (k : OrderIx) :
    (s.setSlot j x).order k = s.order k := by simp [State.order]
@[simp] theorem State.sub_setSlot (s : State) (j : PointIx) (x : Option Point) (q : Port) (k : PointIx) :
    (s.setSlot j x).sub q k = s.sub q k := by simp [State.sub]
@[simp] theorem State.order_mapPoints (s : State) (f : Point → Point) (k : OrderIx) :
    (s.mapPoints f).order k = s.order k := by simp [State.order]
@[simp] theorem State.sub_mapPoints (s : State) (f : Point → Point) (q : Port) (k : PointIx) :
    (s.mapPoints f).sub q k = s.sub q k := by simp [State.sub]
@[simp] theorem State.order_grantInternal (s : State) (h : Holder) (dests : List PointIx) (k : OrderIx) :
    (s.grantInternal h dests).order k = s.order k := by simp [State.order]
@[simp] theorem State.sub_grantInternal (s : State) (h : Holder) (dests : List PointIx) (q : Port) (k : PointIx) :
    (s.grantInternal h dests).sub q k = s.sub q k := by simp [State.sub]
@[simp] theorem State.order_releaseHeld (s : State) (w : Party) (k : OrderIx) :
    (s.releaseHeld w).order k = s.order k := by simp [State.order]
@[simp] theorem State.sub_releaseHeld (s : State) (w : Party) (q : Port) (k : PointIx) :
    (s.releaseHeld w).sub q k = s.sub q k := by simp [State.sub]
@[simp] theorem State.slot_stopRun (s : State) (m : OrderIx) (i : PointIx) :
    (s.stopRun m).slot i = s.slot i := by simp [State.slot]
@[simp] theorem State.order_stopRun (s : State) (m : OrderIx) (k : OrderIx) :
    (s.stopRun m).order k = s.order k := by simp [State.order]
@[simp] theorem State.sub_stopRun (s : State) (m : OrderIx) (q : Port) (k : PointIx) :
    (s.stopRun m).sub q k = s.sub q k := by simp [State.sub]
@[simp] theorem State.slot_driveLines (s : State) (hit : PointIx → Bool) (i : PointIx) :
    (s.driveLines hit).slot i = s.slot i := by simp [State.slot]
@[simp] theorem State.order_driveLines (s : State) (hit : PointIx → Bool) (k : OrderIx) :
    (s.driveLines hit).order k = s.order k := by simp [State.order]
@[simp] theorem State.sub_driveLines (s : State) (hit : PointIx → Bool) (q : Port) (k : PointIx) :
    (s.driveLines hit).sub q k = s.sub q k := by simp [State.sub]

/-- The causes of an event, read at a state with its points and orders: each port's unit takes its own. -/
theorem State.raiseAll_notices_get (s t : State) (rs : List Raise) (hp : t.points = s.points) (ho : t.orders = s.orders)
    (q : Port) : (s.raiseAll rs).notices.get q = (s.notices.get q).takeAll t (raisedFor q rs) := by
  rw [State.raiseAll_eq]
  simp only [PerPort.get_map]
  exact (NoticeUnit.takeAll_congr (State.subjectState_congr hp ho) _ _).symm

end Sys2Proof.Machine
end

