-- ==== Sys2Proof/Laws/Bodies.lean ====
section
/-! SUPPORT. Laws/Bodies.lean: the fields and bodies of a request read back as they were written, and which lengths are read. -/

namespace Sys2Proof.Machine

/-- A 2-byte field reads back as itself. -/
theorem half_bytes2 (h : Half) : half (h.extractLsb' 8 8) (h.extractLsb' 0 8) = h := by
  unfold half; 
  apply BitVec.eq_of_getLsbD_eq
  intro i hi
  rw [BitVec.getLsbD_append]
  by_cases h8 : i < 8
  · simp [h8]
  · have : i - 8 < 8 := by omega
    simp [h8, this]; congr 1; omega

/-- A 4-byte field reads back as itself. -/
theorem word_bytes4 (w : Word) : word ((w.extractLsb' 16 16).extractLsb' 8 8) ((w.extractLsb' 16 16).extractLsb' 0 8) ((w.extractLsb' 0 16).extractLsb' 8 8) ((w.extractLsb' 0 16).extractLsb' 0 8) = w := by
  unfold word
  rw [half_bytes2, half_bytes2]
  apply BitVec.eq_of_getLsbD_eq
  intro i hi
  rw [BitVec.getLsbD_append]
  by_cases h8 : i < 16
  · simp [h8]
  · have : i - 16 < 16 := by omega
    simp [h8, this]; congr 1; omega

/-- A flag reads back as itself. -/
theorem flagCode_back (b : Bool) : decide (flagCode b ≠ 0) = b := by cases b <;> rfl

/-- A list of point entries reads back as itself. -/
theorem parsePoints_bytes (ps : List Half) : parsePoints (ps.flatMap bytes2) = some ps := by
  induction ps with
  | nil => rfl
  | cons p ps ih =>
    simp only [List.flatMap_cons, bytes2, List.cons_append, List.nil_append, parsePoints, ih, half_bytes2, Option.map_some]

/-- A list of WRITE entries reads back as itself. -/
theorem parseWrites_bytes (ps : List WriteArgs) : parseWrites (ps.flatMap fun e => bytes2 e.point ++ bytes4 e.value ++ [flagCode e.suspect]) = some ps := by
  induction ps with
  | nil => rfl
  | cons p ps ih =>
    simp only [List.flatMap_cons, bytes4, bytes2, List.cons_append, List.nil_append, parseWrites] at ih ⊢
    rw [ih]; simp only [half_bytes2, word_bytes4, Option.map_some, flagCode_back]

/-- A list of BATCH_PUT entries reads back as itself. -/
theorem parsePuts_bytes (ps : List PutArgs) : parsePuts (ps.flatMap fun e => bytes2 e.point ++ bytes4 e.value) = some ps := by
  induction ps with
  | nil => rfl
  | cons p ps ih =>
    simp only [List.flatMap_cons, bytes4, bytes2, List.cons_append, List.nil_append, parsePuts] at ih ⊢
    rw [ih]; simp only [half_bytes2, word_bytes4, Option.map_some]

/-- A list of scan list entries reads back as itself. -/
theorem parseScanEntries_bytes (ps : List ScanEntryArgs) : parseScanEntries (ps.flatMap scanEntryBytes) = some ps := by
  induction ps with
  | nil => rfl
  | cons p ps ih =>
    simp only [List.flatMap_cons, scanEntryBytes, bytes4, bytes2, List.cons_append, List.nil_append, parseScanEntries] at ih ⊢
    rw [ih]; simp only [half_bytes2, word_bytes4, Option.map_some]

/-- The body of a well-formed request reads back as that request (R197). -/
theorem parseBody_requestBody (r : Request) (h : r.wf = true) (hs : ∀ x, r ≠ .scanDefine x) :
    parseBody (requestCode r) (requestBody r) = some r := by
  cases r
  case scanDefine x => exact absurd rfl (hs x)
  case read ps =>
    show (parsePoints (ps.flatMap bytes2)).bind _ = _
    simp only [parsePoints_bytes, Option.bind_some, checked, h, if_true]
  case write es =>
    show (parseWrites (es.flatMap fun e => bytes2 e.point ++ bytes4 e.value ++ [flagCode e.suspect])).bind _ = _
    simp only [parseWrites_bytes, Option.bind_some, checked, h, if_true]
  case batchPut es =>
    show (parsePuts (es.flatMap fun e => bytes2 e.point ++ bytes4 e.value)).bind _ = _
    simp only [parsePuts_bytes, Option.bind_some, checked, h, if_true]
  case claim x =>
    show (parsePoints (x.points.flatMap bytes2)).bind (fun ps => checked (.claim ⟨half _ _, x.mode, _, half _ _, ps⟩)) = _
    simp only [parsePoints_bytes, Option.bind_some, checked, half_bytes2, flagCode_back, h, if_true]
  case release x =>
    show (parsePoints (x.points.flatMap bytes2)).bind _ = _
    simp only [parsePoints_bytes, Option.bind_some, checked, h, if_true]
  case renew x =>
    show (parsePoints (x.points.flatMap bytes2)).bind _ = _
    simp only [parsePoints_bytes, Option.bind_some, checked, h, if_true]
  case scanDefinePart x =>
    show (parseScanEntries (x.entries.flatMap scanEntryBytes)).bind
      (fun es => checked (.scanDefinePart ⟨x.mode, ⟨x.trigger.cls, half _ _⟩, x.first, _, es⟩)) = _
    simp only [parseScanEntries_bytes, Option.bind_some, checked, half_bytes2, flagCode_back, h, if_true]
  case define x =>
    show some (Request.define ⟨half _ _, x.kind, word _ _ _ _, word _ _ _ _, word _ _ _ _, x.limitAction, half _ _, x.rights⟩) = _
    simp only [half_bytes2, word_bytes4]
  case undefine p => show some (Request.undefine (half _ _)) = _; simp only [half_bytes2]
  case withdraw p => show some (Request.withdraw (half _ _)) = _; simp only [half_bytes2]
  case unsubscribe p => show some (Request.unsubscribe (half _ _)) = _; simp only [half_bytes2]
  case batchCommit f => show some (Request.batchCommit _) = _; rw [flagCode_back]
  case subscribe x =>
    show some (Request.subscribe ⟨half _ _, x.condition, word _ _ _ _⟩) = _
    simp only [half_bytes2, word_bytes4]
  case orderDefine n x =>
    show some (Request.orderDefine n ⟨⟨x.trigger.cls, half _ _⟩, half _ _, x.runLength, half _ _, x.step, x.wrap, x.transform,
      half _ _, word _ _ _ _, word _ _ _ _, half _ _, x.chain⟩) = _
    simp only [half_bytes2, word_bytes4]
  case tickSet p c => show some (Request.tickSet (half _ _) c) = _; simp only [half_bytes2]
  case timerSet n p m => show some (Request.timerSet n (half _ _) m) = _; simp only [half_bytes2]
  case outputBind x =>
    show some (Request.outputBind ⟨x.line, half _ _, x.safe, _⟩) = _
    simp only [half_bytes2, flagCode_back]
  all_goals rfl

/-- A code reads back as itself. -/
theorem code?_codeByte (c : Code) : code? (codeByte c) = some c := by cases c <;> rfl

/-- The length of a list of fields of equal length. -/
theorem length_flatMap_fields {α} (f : α → List Byte) (k : Nat) (h : ∀ a, (f a).length = k) (l : List α) : (l.flatMap f).length = k * l.length := by
  induction l with
  | nil => simp
  | cons a l ih => rw [List.flatMap_cons, List.length_append, h, ih, List.length_cons, Nat.mul_succ]; omega

/-- The body of a well-formed request has at most 59 bytes (R194). -/
theorem length_requestBody (r : Request) (h : r.wf = true) : (requestBody r).length ≤ 59 := by
  cases r <;> simp only [Request.wf, within, Bool.and_eq_true, decide_eq_true_eq] at h
  case read ps => have := length_flatMap_fields bytes2 2 (fun _ => rfl) ps; simp only [requestBody]; omega
  case write ps => have := length_flatMap_fields (fun e : WriteArgs => bytes2 e.point ++ bytes4 e.value ++ [flagCode e.suspect]) 7 (fun _ => rfl) ps; simp only [requestBody]; omega
  case batchPut ps => have := length_flatMap_fields (fun e : PutArgs => bytes2 e.point ++ bytes4 e.value) 6 (fun _ => rfl) ps; simp only [requestBody]; omega
  case claim x => have := length_flatMap_fields bytes2 2 (fun _ => rfl) x.points; simp only [requestBody, bytes2, List.length_append, List.length_cons, List.length_nil] at *; omega
  case release x => have := length_flatMap_fields bytes2 2 (fun _ => rfl) x.points; simp only [requestBody, List.length_cons] at *; omega
  case renew x => have := length_flatMap_fields bytes2 2 (fun _ => rfl) x.points; simp only [requestBody, List.length_cons] at *; omega
  case scanDefinePart x => have := length_flatMap_fields scanEntryBytes 10 (fun _ => rfl) x.entries; simp only [requestBody, triggerBytes, bytes2, List.length_append, List.length_cons, List.length_nil] at *; omega
  all_goals simp [requestBody, bytes2, bytes4, orderArgsBytes, triggerBytes]

/-- A checked request is well formed. -/
theorem checked_wf {r x : Request} (h : checked r = some x) : x.wf = true := by
  unfold checked at h; split at h
  · cases h; assumption
  · cases h

/-- A request read from a list of fields and checked is well formed. -/
theorem bind_checked_wf {α} {o : Option α} {f : α → Request} {x} (h : (o.bind fun a => checked (f a)) = some x) : x.wf = true := by
  cases o with
  | none => cases h
  | some a => exact checked_wf h

/-- A body of define that is read gives a well-formed request. -/
theorem parseBody_wf_define {b : List Byte} {r : Request} (h : parseBody .define b = some r) : r.wf = true := by
  rcases b with _ | ⟨b0, b⟩
  · cases (show none = some r from h)
  rcases b with _ | ⟨b1, b⟩
  · cases (show none = some r from h)
  rcases b with _ | ⟨b2, b⟩
  · cases (show none = some r from h)
  rcases b with _ | ⟨b3, b⟩
  · cases (show none = some r from h)
  rcases b with _ | ⟨b4, b⟩
  · cases (show none = some r from h)
  rcases b with _ | ⟨b5, b⟩
  · cases (show none = some r from h)
  rcases b with _ | ⟨b6, b⟩
  · cases (show none = some r from h)
  rcases b with _ | ⟨b7, b⟩
  · cases (show none = some r from h)
  rcases b with _ | ⟨b8, b⟩
  · cases (show none = some r from h)
  rcases b with _ | ⟨b9, b⟩
  · cases (show none = some r from h)
  rcases b with _ | ⟨b10, b⟩
  · cases (show none = some r from h)
  rcases b with _ | ⟨b11, b⟩
  · cases (show none = some r from h)
  rcases b with _ | ⟨b12, b⟩
  · cases (show none = some r from h)
  rcases b with _ | ⟨b13, b⟩
  · cases (show none = some r from h)
  rcases b with _ | ⟨b14, b⟩
  · cases (show none = some r from h)
  rcases b with _ | ⟨b15, b⟩
  · cases (show none = some r from h)
  rcases b with _ | ⟨b16, b⟩
  · cases (show none = some r from h)
  rcases b with _ | ⟨b17, b⟩
  · cases (show none = some r from h)
  rcases b with _ | ⟨b18, b⟩
  · cases (show none = some r from h)
  rcases b with _ | ⟨c, b⟩
  · injection h with h; subst h; rfl
  · cases (show none = some r from h)

/-- A body of undefine that is read gives a well-formed request. -/
theorem parseBody_wf_undefine {b : List Byte} {r : Request} (h : parseBody .undefine b = some r) : r.wf = true := by
  rcases b with _ | ⟨b0, b⟩
  · cases (show none = some r from h)
  rcases b with _ | ⟨b1, b⟩
  · cases (show none = some r from h)
  rcases b with _ | ⟨c, b⟩
  · injection h with h; subst h; rfl
  · cases (show none = some r from h)

/-- A body of tableReset that is read gives a well-formed request. -/
theorem parseBody_wf_tableReset {b : List Byte} {r : Request} (h : parseBody .tableReset b = some r) : r.wf = true := by
  rcases b with _ | ⟨c, b⟩
  · injection h with h; subst h; rfl
  · cases (show none = some r from h)

/-- A body of withdraw that is read gives a well-formed request. -/
theorem parseBody_wf_withdraw {b : List Byte} {r : Request} (h : parseBody .withdraw b = some r) : r.wf = true := by
  rcases b with _ | ⟨b0, b⟩
  · cases (show none = some r from h)
  rcases b with _ | ⟨b1, b⟩
  · cases (show none = some r from h)
  rcases b with _ | ⟨c, b⟩
  · injection h with h; subst h; rfl
  · cases (show none = some r from h)

/-- A body of batchOpen that is read gives a well-formed request. -/
theorem parseBody_wf_batchOpen {b : List Byte} {r : Request} (h : parseBody .batchOpen b = some r) : r.wf = true := by
  rcases b with _ | ⟨c, b⟩
  · injection h with h; subst h; rfl
  · cases (show none = some r from h)

/-- A body of batchCommit that is read gives a well-formed request. -/
theorem parseBody_wf_batchCommit {b : List Byte} {r : Request} (h : parseBody .batchCommit b = some r) : r.wf = true := by
  rcases b with _ | ⟨b0, b⟩
  · cases (show none = some r from h)
  rcases b with _ | ⟨c, b⟩
  · injection h with h; subst h; rfl
  · cases (show none = some r from h)

/-- A body of batchDiscard that is read gives a well-formed request. -/
theorem parseBody_wf_batchDiscard {b : List Byte} {r : Request} (h : parseBody .batchDiscard b = some r) : r.wf = true := by
  rcases b with _ | ⟨c, b⟩
  · injection h with h; subst h; rfl
  · cases (show none = some r from h)

/-- A body of subscribe that is read gives a well-formed request. -/
theorem parseBody_wf_subscribe {b : List Byte} {r : Request} (h : parseBody .subscribe b = some r) : r.wf = true := by
  rcases b with _ | ⟨b0, b⟩
  · cases (show none = some r from h)
  rcases b with _ | ⟨b1, b⟩
  · cases (show none = some r from h)
  rcases b with _ | ⟨b2, b⟩
  · cases (show none = some r from h)
  rcases b with _ | ⟨b3, b⟩
  · cases (show none = some r from h)
  rcases b with _ | ⟨b4, b⟩
  · cases (show none = some r from h)
  rcases b with _ | ⟨b5, b⟩
  · cases (show none = some r from h)
  rcases b with _ | ⟨b6, b⟩
  · cases (show none = some r from h)
  rcases b with _ | ⟨c, b⟩
  · injection h with h; subst h; rfl
  · cases (show none = some r from h)

/-- A body of unsubscribe that is read gives a well-formed request. -/
theorem parseBody_wf_unsubscribe {b : List Byte} {r : Request} (h : parseBody .unsubscribe b = some r) : r.wf = true := by
  rcases b with _ | ⟨b0, b⟩
  · cases (show none = some r from h)
  rcases b with _ | ⟨b1, b⟩
  · cases (show none = some r from h)
  rcases b with _ | ⟨c, b⟩
  · injection h with h; subst h; rfl
  · cases (show none = some r from h)

/-- A body of fetch that is read gives a well-formed request. -/
theorem parseBody_wf_fetch {b : List Byte} {r : Request} (h : parseBody .fetch b = some r) : r.wf = true := by
  rcases b with _ | ⟨b0, b⟩
  · cases (show none = some r from h)
  rcases b with _ | ⟨c, b⟩
  · injection h with h; subst h; rfl
  · cases (show none = some r from h)

/-- A body of orderDefine that is read gives a well-formed request. -/
theorem parseBody_wf_orderDefine {b : List Byte} {r : Request} (h : parseBody .orderDefine b = some r) : r.wf = true := by
  rcases b with _ | ⟨b0, b⟩
  · cases (show none = some r from h)
  rcases b with _ | ⟨b1, b⟩
  · cases (show none = some r from h)
  rcases b with _ | ⟨b2, b⟩
  · cases (show none = some r from h)
  rcases b with _ | ⟨b3, b⟩
  · cases (show none = some r from h)
  rcases b with _ | ⟨b4, b⟩
  · cases (show none = some r from h)
  rcases b with _ | ⟨b5, b⟩
  · cases (show none = some r from h)
  rcases b with _ | ⟨b6, b⟩
  · cases (show none = some r from h)
  rcases b with _ | ⟨b7, b⟩
  · cases (show none = some r from h)
  rcases b with _ | ⟨b8, b⟩
  · cases (show none = some r from h)
  rcases b with _ | ⟨b9, b⟩
  · cases (show none = some r from h)
  rcases b with _ | ⟨b10, b⟩
  · cases (show none = some r from h)
  rcases b with _ | ⟨b11, b⟩
  · cases (show none = some r from h)
  rcases b with _ | ⟨b12, b⟩
  · cases (show none = some r from h)
  rcases b with _ | ⟨b13, b⟩
  · cases (show none = some r from h)
  rcases b with _ | ⟨b14, b⟩
  · cases (show none = some r from h)
  rcases b with _ | ⟨b15, b⟩
  · cases (show none = some r from h)
  rcases b with _ | ⟨b16, b⟩
  · cases (show none = some r from h)
  rcases b with _ | ⟨b17, b⟩
  · cases (show none = some r from h)
  rcases b with _ | ⟨b18, b⟩
  · cases (show none = some r from h)
  rcases b with _ | ⟨b19, b⟩
  · cases (show none = some r from h)
  rcases b with _ | ⟨b20, b⟩
  · cases (show none = some r from h)
  rcases b with _ | ⟨b21, b⟩
  · cases (show none = some r from h)
  rcases b with _ | ⟨b22, b⟩
  · cases (show none = some r from h)
  rcases b with _ | ⟨b23, b⟩
  · cases (show none = some r from h)
  rcases b with _ | ⟨b24, b⟩
  · cases (show none = some r from h)
  rcases b with _ | ⟨c, b⟩
  · injection h with h; subst h; rfl
  · cases (show none = some r from h)

/-- A body of orderArm that is read gives a well-formed request. -/
theorem parseBody_wf_orderArm {b : List Byte} {r : Request} (h : parseBody .orderArm b = some r) : r.wf = true := by
  rcases b with _ | ⟨b0, b⟩
  · cases (show none = some r from h)
  rcases b with _ | ⟨c, b⟩
  · injection h with h; subst h; rfl
  · cases (show none = some r from h)

/-- A body of orderDisarm that is read gives a well-formed request. -/
theorem parseBody_wf_orderDisarm {b : List Byte} {r : Request} (h : parseBody .orderDisarm b = some r) : r.wf = true := by
  rcases b with _ | ⟨b0, b⟩
  · cases (show none = some r from h)
  rcases b with _ | ⟨c, b⟩
  · injection h with h; subst h; rfl
  · cases (show none = some r from h)

/-- A body of orderFire that is read gives a well-formed request. -/
theorem parseBody_wf_orderFire {b : List Byte} {r : Request} (h : parseBody .orderFire b = some r) : r.wf = true := by
  rcases b with _ | ⟨b0, b⟩
  · cases (show none = some r from h)
  rcases b with _ | ⟨c, b⟩
  · injection h with h; subst h; rfl
  · cases (show none = some r from h)

/-- A body of orderQuery that is read gives a well-formed request. -/
theorem parseBody_wf_orderQuery {b : List Byte} {r : Request} (h : parseBody .orderQuery b = some r) : r.wf = true := by
  rcases b with _ | ⟨b0, b⟩
  · cases (show none = some r from h)
  rcases b with _ | ⟨c, b⟩
  · injection h with h; subst h; rfl
  · cases (show none = some r from h)

/-- A body of orderClear that is read gives a well-formed request. -/
theorem parseBody_wf_orderClear {b : List Byte} {r : Request} (h : parseBody .orderClear b = some r) : r.wf = true := by
  rcases b with _ | ⟨b0, b⟩
  · cases (show none = some r from h)
  rcases b with _ | ⟨c, b⟩
  · injection h with h; subst h; rfl
  · cases (show none = some r from h)

/-- A body of scanArm that is read gives a well-formed request. -/
theorem parseBody_wf_scanArm {b : List Byte} {r : Request} (h : parseBody .scanArm b = some r) : r.wf = true := by
  rcases b with _ | ⟨c, b⟩
  · injection h with h; subst h; rfl
  · cases (show none = some r from h)

/-- A body of scanStart that is read gives a well-formed request. -/
theorem parseBody_wf_scanStart {b : List Byte} {r : Request} (h : parseBody .scanStart b = some r) : r.wf = true := by
  rcases b with _ | ⟨c, b⟩
  · injection h with h; subst h; rfl
  · cases (show none = some r from h)

/-- A body of scanStop that is read gives a well-formed request. -/
theorem parseBody_wf_scanStop {b : List Byte} {r : Request} (h : parseBody .scanStop b = some r) : r.wf = true := by
  rcases b with _ | ⟨c, b⟩
  · injection h with h; subst h; rfl
  · cases (show none = some r from h)

/-- A body of scanDisarm that is read gives a well-formed request. -/
theorem parseBody_wf_scanDisarm {b : List Byte} {r : Request} (h : parseBody .scanDisarm b = some r) : r.wf = true := by
  rcases b with _ | ⟨c, b⟩
  · injection h with h; subst h; rfl
  · cases (show none = some r from h)

/-- A body of scanQuery that is read gives a well-formed request. -/
theorem parseBody_wf_scanQuery {b : List Byte} {r : Request} (h : parseBody .scanQuery b = some r) : r.wf = true := by
  rcases b with _ | ⟨c, b⟩
  · injection h with h; subst h; rfl
  · cases (show none = some r from h)

/-- A body of tickSet that is read gives a well-formed request. -/
theorem parseBody_wf_tickSet {b : List Byte} {r : Request} (h : parseBody .tickSet b = some r) : r.wf = true := by
  rcases b with _ | ⟨b0, b⟩
  · cases (show none = some r from h)
  rcases b with _ | ⟨b1, b⟩
  · cases (show none = some r from h)
  rcases b with _ | ⟨b2, b⟩
  · cases (show none = some r from h)
  rcases b with _ | ⟨c, b⟩
  · injection h with h; subst h; rfl
  · cases (show none = some r from h)

/-- A body of timerSet that is read gives a well-formed request. -/
theorem parseBody_wf_timerSet {b : List Byte} {r : Request} (h : parseBody .timerSet b = some r) : r.wf = true := by
  rcases b with _ | ⟨b0, b⟩
  · cases (show none = some r from h)
  rcases b with _ | ⟨b1, b⟩
  · cases (show none = some r from h)
  rcases b with _ | ⟨b2, b⟩
  · cases (show none = some r from h)
  rcases b with _ | ⟨b3, b⟩
  · cases (show none = some r from h)
  rcases b with _ | ⟨c, b⟩
  · injection h with h; subst h; rfl
  · cases (show none = some r from h)

/-- A body of timerStop that is read gives a well-formed request. -/
theorem parseBody_wf_timerStop {b : List Byte} {r : Request} (h : parseBody .timerStop b = some r) : r.wf = true := by
  rcases b with _ | ⟨b0, b⟩
  · cases (show none = some r from h)
  rcases b with _ | ⟨c, b⟩
  · injection h with h; subst h; rfl
  · cases (show none = some r from h)

/-- A body of lineSet that is read gives a well-formed request. -/
theorem parseBody_wf_lineSet {b : List Byte} {r : Request} (h : parseBody .lineSet b = some r) : r.wf = true := by
  rcases b with _ | ⟨b0, b⟩
  · cases (show none = some r from h)
  rcases b with _ | ⟨b1, b⟩
  · cases (show none = some r from h)
  rcases b with _ | ⟨c, b⟩
  · injection h with h; subst h; rfl
  · cases (show none = some r from h)

/-- A body of outputBind that is read gives a well-formed request. -/
theorem parseBody_wf_outputBind {b : List Byte} {r : Request} (h : parseBody .outputBind b = some r) : r.wf = true := by
  rcases b with _ | ⟨b0, b⟩
  · cases (show none = some r from h)
  rcases b with _ | ⟨b1, b⟩
  · cases (show none = some r from h)
  rcases b with _ | ⟨b2, b⟩
  · cases (show none = some r from h)
  rcases b with _ | ⟨b3, b⟩
  · cases (show none = some r from h)
  rcases b with _ | ⟨b4, b⟩
  · cases (show none = some r from h)
  rcases b with _ | ⟨c, b⟩
  · injection h with h; subst h; rfl
  · cases (show none = some r from h)

/-- A body of portReset that is read gives a well-formed request. -/
theorem parseBody_wf_portReset {b : List Byte} {r : Request} (h : parseBody .portReset b = some r) : r.wf = true := by
  rcases b with _ | ⟨c, b⟩
  · injection h with h; subst h; rfl
  · cases (show none = some r from h)

/-- A body of forcePortReset that is read gives a well-formed request. -/
theorem parseBody_wf_forcePortReset {b : List Byte} {r : Request} (h : parseBody .forcePortReset b = some r) : r.wf = true := by
  rcases b with _ | ⟨b0, b⟩
  · cases (show none = some r from h)
  rcases b with _ | ⟨c, b⟩
  · injection h with h; subst h; rfl
  · cases (show none = some r from h)

/-- A body of configGrant that is read gives a well-formed request. -/
theorem parseBody_wf_configGrant {b : List Byte} {r : Request} (h : parseBody .configGrant b = some r) : r.wf = true := by
  rcases b with _ | ⟨b0, b⟩
  · cases (show none = some r from h)
  rcases b with _ | ⟨c, b⟩
  · injection h with h; subst h; rfl
  · cases (show none = some r from h)

/-- A body of configRevoke that is read gives a well-formed request. -/
theorem parseBody_wf_configRevoke {b : List Byte} {r : Request} (h : parseBody .configRevoke b = some r) : r.wf = true := by
  rcases b with _ | ⟨b0, b⟩
  · cases (show none = some r from h)
  rcases b with _ | ⟨c, b⟩
  · injection h with h; subst h; rfl
  · cases (show none = some r from h)

/-- A body of attnSet that is read gives a well-formed request. -/
theorem parseBody_wf_attnSet {b : List Byte} {r : Request} (h : parseBody .attnSet b = some r) : r.wf = true := by
  rcases b with _ | ⟨b0, b⟩
  · cases (show none = some r from h)
  rcases b with _ | ⟨b1, b⟩
  · cases (show none = some r from h)
  rcases b with _ | ⟨c, b⟩
  · injection h with h; subst h; rfl
  · cases (show none = some r from h)

/-- A body of status that is read gives a well-formed request. -/
theorem parseBody_wf_status {b : List Byte} {r : Request} (h : parseBody .status b = some r) : r.wf = true := by
  rcases b with _ | ⟨c, b⟩
  · injection h with h; subst h; rfl
  · cases (show none = some r from h)

/-- A body of read that is read gives a well-formed request. -/
theorem parseBody_wf_read {b : List Byte} {r : Request} (h : parseBody .read b = some r) : r.wf = true := by
  exact bind_checked_wf (show ((parsePoints b).bind fun ps => checked (.read ps)) = some r from h)

/-- A body of write that is read gives a well-formed request. -/
theorem parseBody_wf_write {b : List Byte} {r : Request} (h : parseBody .write b = some r) : r.wf = true := by
  exact bind_checked_wf (show ((parseWrites b).bind fun ps => checked (.write ps)) = some r from h)

/-- A body of claim that is read gives a well-formed request. -/
theorem parseBody_wf_claim {b : List Byte} {r : Request} (h : parseBody .claim b = some r) : r.wf = true := by
  rcases b with _ | ⟨b0, b⟩
  · cases (show none = some r from h)
  rcases b with _ | ⟨b1, b⟩
  · cases (show none = some r from h)
  rcases b with _ | ⟨b2, b⟩
  · cases (show none = some r from h)
  rcases b with _ | ⟨b3, b⟩
  · cases (show none = some r from h)
  rcases b with _ | ⟨b4, b⟩
  · cases (show none = some r from h)
  rcases b with _ | ⟨b5, b⟩
  · cases (show none = some r from h)
  exact bind_checked_wf (show ((parsePoints b).bind fun ps => checked (.claim ⟨half b0 b1, b2, b3 ≠ 0, half b4 b5, ps⟩)) = some r from h)

/-- A body of release that is read gives a well-formed request. -/
theorem parseBody_wf_release {b : List Byte} {r : Request} (h : parseBody .release b = some r) : r.wf = true := by
  rcases b with _ | ⟨b0, b⟩
  · cases (show none = some r from h)
  exact bind_checked_wf (show ((parsePoints b).bind fun ps => checked (.release ⟨b0, ps⟩)) = some r from h)

/-- A body of renew that is read gives a well-formed request. -/
theorem parseBody_wf_renew {b : List Byte} {r : Request} (h : parseBody .renew b = some r) : r.wf = true := by
  rcases b with _ | ⟨b0, b⟩
  · cases (show none = some r from h)
  exact bind_checked_wf (show ((parsePoints b).bind fun ps => checked (.renew ⟨b0, ps⟩)) = some r from h)

/-- A body of batchPut that is read gives a well-formed request. -/
theorem parseBody_wf_batchPut {b : List Byte} {r : Request} (h : parseBody .batchPut b = some r) : r.wf = true := by
  exact bind_checked_wf (show ((parsePuts b).bind fun ps => checked (.batchPut ps)) = some r from h)

/-- A body of scanDefine that is read gives a well-formed request. -/
theorem parseBody_wf_scanDefine {b : List Byte} {r : Request} (h : parseBody .scanDefine b = some r) : r.wf = true := by
  rcases b with _ | ⟨b0, b⟩
  · cases (show none = some r from h)
  rcases b with _ | ⟨b1, b⟩
  · cases (show none = some r from h)
  rcases b with _ | ⟨b2, b⟩
  · cases (show none = some r from h)
  rcases b with _ | ⟨b3, b⟩
  · cases (show none = some r from h)
  rcases b with _ | ⟨b4, b⟩
  · cases (show none = some r from h)
  rcases b with _ | ⟨b5, b⟩
  · cases (show none = some r from h)
  exact bind_checked_wf (show ((parseScanEntries b).bind fun es => checked (.scanDefinePart ⟨b0, ⟨b1, half b2 b3⟩, b4, b5 ≠ 0, es⟩)) = some r from h)

/-- A body that is read gives a well-formed request (R174). -/
theorem parseBody_wf {c : Code} {b : List Byte} {r : Request} (h : parseBody c b = some r) : r.wf = true := by
  cases c
  case define => exact parseBody_wf_define h
  case undefine => exact parseBody_wf_undefine h
  case tableReset => exact parseBody_wf_tableReset h
  case withdraw => exact parseBody_wf_withdraw h
  case batchOpen => exact parseBody_wf_batchOpen h
  case batchCommit => exact parseBody_wf_batchCommit h
  case batchDiscard => exact parseBody_wf_batchDiscard h
  case subscribe => exact parseBody_wf_subscribe h
  case unsubscribe => exact parseBody_wf_unsubscribe h
  case fetch => exact parseBody_wf_fetch h
  case orderDefine => exact parseBody_wf_orderDefine h
  case orderArm => exact parseBody_wf_orderArm h
  case orderDisarm => exact parseBody_wf_orderDisarm h
  case orderFire => exact parseBody_wf_orderFire h
  case orderQuery => exact parseBody_wf_orderQuery h
  case orderClear => exact parseBody_wf_orderClear h
  case scanArm => exact parseBody_wf_scanArm h
  case scanStart => exact parseBody_wf_scanStart h
  case scanStop => exact parseBody_wf_scanStop h
  case scanDisarm => exact parseBody_wf_scanDisarm h
  case scanQuery => exact parseBody_wf_scanQuery h
  case tickSet => exact parseBody_wf_tickSet h
  case timerSet => exact parseBody_wf_timerSet h
  case timerStop => exact parseBody_wf_timerStop h
  case lineSet => exact parseBody_wf_lineSet h
  case outputBind => exact parseBody_wf_outputBind h
  case portReset => exact parseBody_wf_portReset h
  case forcePortReset => exact parseBody_wf_forcePortReset h
  case configGrant => exact parseBody_wf_configGrant h
  case configRevoke => exact parseBody_wf_configRevoke h
  case attnSet => exact parseBody_wf_attnSet h
  case status => exact parseBody_wf_status h
  case read => exact parseBody_wf_read h
  case write => exact parseBody_wf_write h
  case claim => exact parseBody_wf_claim h
  case release => exact parseBody_wf_release h
  case renew => exact parseBody_wf_renew h
  case batchPut => exact parseBody_wf_batchPut h
  case scanDefine => exact parseBody_wf_scanDefine h

/-! ### Lengths: a body is read exactly when it is a whole number of entries (R174, R197) -/

/-- One more entry is read exactly when the entries behind it are. -/
theorem map_cons_length {α : Type} (o : Option (List α)) (a : α) (k : Nat) :
    (∃ l, o.map (a :: ·) = some l ∧ l.length = k) ↔ ∃ j, k = j + 1 ∧ ∃ l, o = some l ∧ l.length = j := by
  constructor
  · rintro ⟨l, h, hk⟩
    obtain ⟨m, hm, rfl⟩ := Option.map_eq_some_iff.1 h
    exact ⟨m.length, hk.symm, m, hm, rfl⟩
  · rintro ⟨j, rfl, l, rfl, rfl⟩
    exact ⟨a :: l, rfl, rfl⟩

/-- Bytes are read as k point entries exactly when there are 2 for each. -/
theorem parsePoints_length (b : List Byte) (k : Nat) : (∃ l, parsePoints b = some l ∧ l.length = k) ↔ b.length = k * 2 := by
  fun_induction parsePoints b generalizing k with
  | case1 =>
    simp only [Option.some.injEq, exists_eq_left', List.length_nil]
    omega
  | case2 _ _ rest ih =>
    rw [map_cons_length]
    simp only [ih, List.length_cons]
    constructor
    · rintro ⟨j, rfl, h⟩
      omega
    · intro h
      exact ⟨k - 1, by omega, by omega⟩
  | case3 b h1 h2 =>
    rcases b with _ | ⟨_, _ | ⟨_, b⟩⟩
    · exact absurd rfl h1
    all_goals first
      | exact absurd rfl (h2 _ _ _ )
      | (simp only [List.length_cons, List.length_nil, reduceCtorEq, false_and, exists_false, false_iff]
         omega)

/-- Bytes are read as k WRITE entries exactly when there are 7 for each. -/
theorem parseWrites_length (b : List Byte) (k : Nat) : (∃ l, parseWrites b = some l ∧ l.length = k) ↔ b.length = k * 7 := by
  fun_induction parseWrites b generalizing k with
  | case1 =>
    simp only [Option.some.injEq, exists_eq_left', List.length_nil]
    omega
  | case2 _ _ _ _ _ _ _ rest ih =>
    rw [map_cons_length]
    simp only [ih, List.length_cons]
    constructor
    · rintro ⟨j, rfl, h⟩
      omega
    · intro h
      exact ⟨k - 1, by omega, by omega⟩
  | case3 b h1 h2 =>
    rcases b with _ | ⟨_, _ | ⟨_, _ | ⟨_, _ | ⟨_, _ | ⟨_, _ | ⟨_, _ | ⟨_, b⟩⟩⟩⟩⟩⟩⟩
    · exact absurd rfl h1
    all_goals first
      | exact absurd rfl (h2 _ _ _ _ _ _ _ _ )
      | (simp only [List.length_cons, List.length_nil, reduceCtorEq, false_and, exists_false, false_iff]
         omega)

/-- Bytes are read as k BATCH_PUT entries exactly when there are 6 for each. -/
theorem parsePuts_length (b : List Byte) (k : Nat) : (∃ l, parsePuts b = some l ∧ l.length = k) ↔ b.length = k * 6 := by
  fun_induction parsePuts b generalizing k with
  | case1 =>
    simp only [Option.some.injEq, exists_eq_left', List.length_nil]
    omega
  | case2 _ _ _ _ _ _ rest ih =>
    rw [map_cons_length]
    simp only [ih, List.length_cons]
    constructor
    · rintro ⟨j, rfl, h⟩
      omega
    · intro h
      exact ⟨k - 1, by omega, by omega⟩
  | case3 b h1 h2 =>
    rcases b with _ | ⟨_, _ | ⟨_, _ | ⟨_, _ | ⟨_, _ | ⟨_, _ | ⟨_, b⟩⟩⟩⟩⟩⟩
    · exact absurd rfl h1
    all_goals first
      | exact absurd rfl (h2 _ _ _ _ _ _ _ )
      | (simp only [List.length_cons, List.length_nil, reduceCtorEq, false_and, exists_false, false_iff]
         omega)

/-- Bytes are read as k scan list entries exactly when there are 10 for each. -/
theorem parseScanEntries_length (b : List Byte) (k : Nat) : (∃ l, parseScanEntries b = some l ∧ l.length = k) ↔ b.length = k * 10 := by
  fun_induction parseScanEntries b generalizing k with
  | case1 =>
    simp only [Option.some.injEq, exists_eq_left', List.length_nil]
    omega
  | case2 _ _ _ _ _ _ _ _ _ _ rest ih =>
    rw [map_cons_length]
    simp only [ih, List.length_cons]
    constructor
    · rintro ⟨j, rfl, h⟩
      omega
    · intro h
      exact ⟨k - 1, by omega, by omega⟩
  | case3 b h1 h2 =>
    rcases b with _ | ⟨_, _ | ⟨_, _ | ⟨_, _ | ⟨_, _ | ⟨_, _ | ⟨_, _ | ⟨_, _ | ⟨_, _ | ⟨_, _ | ⟨_, b⟩⟩⟩⟩⟩⟩⟩⟩⟩⟩
    · exact absurd rfl h1
    all_goals first
      | exact absurd rfl (h2 _ _ _ _ _ _ _ _ _ _ _ )
      | (simp only [List.length_cons, List.length_nil, reduceCtorEq, false_and, exists_false, false_iff]
         omega)

/-- Checked entries give a request exactly when their number is within the bounds of the code. -/
theorem bind_checked_isSome {α : Type} (o : Option (List α)) (f : List α → Request) (least most : Nat)
    (hf : ∀ l, (f l).wf = within least most l.length) :
    (o.bind fun l => checked (f l)).isSome = true ↔ ∃ k, least ≤ k ∧ k ≤ most ∧ ∃ l, o = some l ∧ l.length = k := by
  cases o with
  | none => simp
  | some l => simp [checked, hf, within]

end Sys2Proof.Machine
end

