-- ==== Sys2Proof/Laws/Codes.lean ====
section
/-! SUPPORT. Laws/Codes.lean: what each reader of a field accepts, said once, and the fields that the writers of bytes make. -/

namespace Sys2Proof.Machine

/-! ### Indices -/

theorem pointIx?_eq_some (h : Half) (i : PointIx) : pointIx? h = some i ↔ h.toNat = i.val := by
  unfold pointIx?
  split
  · simp [Fin.ext_iff]
  · constructor
    · exact fun e => nomatch e
    · have := i.isLt
      omega

theorem pointIx?_eq_none (h : Half) : pointIx? h = none ↔ 512 ≤ h.toNat := by
  unfold pointIx?
  split <;> simp <;> omega

theorem lineIx?_eq_some (b : Byte) (n : Fin 8) : lineIx? b = some n ↔ b.toNat = n.val := by
  unfold lineIx?
  split
  · simp [Fin.ext_iff]
  · constructor
    · exact fun e => nomatch e
    · have := n.isLt
      omega

/-! ### Codes of Table 10.1-1 -/

theorem kind?_eq_some (b : Byte) (k : Kind) :
    kind? b = some k ↔ b = (match k with
      | .u32 => 0x00
      | .s32 => 0x01
      | .bool => 0x02) := by
  revert b
  cases k <;> decide +kernel

theorem limitAction?_eq_some (b : Byte) (a : LimitAction) :
    limitAction? b = some a ↔ b = (match a with
      | .reject => 0x00
      | .clamp => 0x01) := by
  revert b
  cases a <;> decide +kernel

theorem claimMode?_eq_some (b : Byte) (m : ClaimMode) :
    claimMode? b = some m ↔ b = (match m with
      | .hold => 0x00
      | .writeOnce => 0x01) := by
  revert b
  cases m <;> decide +kernel

theorem claimMode?_eq_none (b : Byte) : claimMode? b = none ↔ 1 < b.toNat := by
  revert b
  decide +kernel

theorem scanMode?_eq_some (b : Byte) (m : ScanMode) :
    scanMode? b = some m ↔ b = (match m with
      | .single => 0x00
      | .continuous => 0x01) := by
  revert b
  cases m <;> decide +kernel

theorem twoWay?_eq_some (b : Byte) (x : Bool) : twoWay? b = some x ↔ b = if x then 0x01 else 0x00 := by
  revert b
  cases x <;> decide +kernel

theorem port?_eq_some (b : Byte) (q : Port) : port? b = some q ↔ b = portCode q := by
  revert b
  cases q <;> decide +kernel

theorem chain?_eq_some (b : Byte) (c : Option (Fin 8)) :
    chain? b = some c ↔ (match c with
      | none => b = 0xFF
      | some n => b.toNat = n.val) := by
  revert b
  cases c with
  | none => decide +kernel
  | some n =>
    revert n
    decide +kernel

theorem code?_eq_some (b : Byte) (c : Code) : code? b = some c ↔ b = codeByte c := by
  revert b
  cases c <;> decide +kernel

/-! ### Trigger sources, orders and scan lists (R113, R142) -/

theorem trigger?_eq_some (x : TriggerArgs) (t : Trigger) : trigger? x = some t ↔ CarriesTrigger x t := by
  obtain ⟨cls, number⟩ := x
  have hcls : ∀ k : Nat, k < 6 → (cls.toNat = k ↔ cls = BitVec.ofNat 8 k) := by
    intro k hk
    constructor
    · intro h
      exact BitVec.eq_of_toNat_eq (by simp; omega)
    · rintro rfl
      simp; omega
  unfold trigger?
  dsimp only
  split
  · rename_i h
    rw [hcls 0 (by omega)] at h
    subst h
    cases t <;> simp [CarriesTrigger]
  · rename_i h
    rw [hcls 1 (by omega)] at h
    subst h
    cases t <;> split <;> simp [CarriesTrigger, Fin.ext_iff] <;> omega
  · rename_i h
    rw [hcls 2 (by omega)] at h
    subst h
    cases t <;> split <;> simp [CarriesTrigger, Fin.ext_iff] <;> omega
  · rename_i h
    rw [hcls 3 (by omega)] at h
    subst h
    cases t <;> split <;> simp [CarriesTrigger, Fin.ext_iff] <;> omega
  · rename_i h
    rw [hcls 4 (by omega)] at h
    subst h
    cases t <;> simp [CarriesTrigger]
  · rename_i h
    rw [hcls 5 (by omega)] at h
    subst h
    cases t <;> simp [CarriesTrigger, pointIx?_eq_some]
  · rename_i h0 h1 h2 h3 h4 h5
    rw [hcls 0 (by omega)] at h0
    rw [hcls 1 (by omega)] at h1
    rw [hcls 2 (by omega)] at h2
    rw [hcls 3 (by omega)] at h3
    rw [hcls 4 (by omega)] at h4
    rw [hcls 5 (by omega)] at h5
    cases t <;> simp_all [CarriesTrigger]

theorem sourceStep?_eq_some (x : OrderArgs) (m : SourceStep) :
    sourceStep? x = some m ↔ (match m with
      | .fixed => x.step = 0x00
      | .step => x.step = 0x01
      | .stepWrap w => x.step = 0x02 ∧ w = x.wrap.toNat ∧ 1 ≤ w ∧ w ≤ 32 ∧ x.source.toNat + w * x.runLength.toNat - 1 ≤ 511) := by
  have hstep : ∀ k : Nat, k < 3 → (x.step.toNat = k ↔ x.step = BitVec.ofNat 8 k) := by
    intro k hk
    constructor
    · intro h
      exact BitVec.eq_of_toNat_eq (by simp; omega)
    · intro h
      rw [h]; simp; omega
  unfold sourceStep?
  dsimp only
  split
  · rename_i h
    rw [hstep 0 (by omega)] at h
    cases m <;> simp [h]
  · rename_i h
    rw [hstep 1 (by omega)] at h
    cases m <;> simp [h]
  · rename_i h
    rw [hstep 2 (by omega)] at h
    cases m with
    | fixed => split <;> simp [h]
    | step => split <;> simp [h]
    | stepWrap w =>
      generalize x.wrap.toNat = v
      generalize x.source.toNat = a
      generalize x.runLength.toNat = n
      split
      · rename_i hc
        simp only [Option.some.injEq, SourceStep.stepWrap.injEq, h]
        constructor
        · rintro rfl
          exact ⟨rfl, rfl, hc.1, hc.2.1, by omega⟩
        · exact fun hw => hw.2.1.symm
      · rename_i hc
        simp only [reduceCtorEq, false_iff]
        rintro ⟨-, rfl, h1, h2, h3⟩
        exact hc ⟨h1, h2, by omega⟩
  · rename_i h0 h1 h2
    rw [hstep 0 (by omega)] at h0
    rw [hstep 1 (by omega)] at h1
    rw [hstep 2 (by omega)] at h2
    cases m <;> simp_all

theorem transform?_eq_some (x : OrderArgs) (m : Transform) :
    transform? x = some m ↔ (match m with
      | .copy => x.transform = 0x00
      | .scale gain offset => x.transform = 0x01 ∧ gain = x.gain ∧ offset = x.offset
      | .invert => x.transform = 0x02
      | .compare threshold => x.transform = 0x03 ∧ threshold = x.threshold) := by
  have hcode : ∀ k : Nat, k < 4 → (x.transform.toNat = k ↔ x.transform = BitVec.ofNat 8 k) := by
    intro k hk
    constructor
    · intro h
      exact BitVec.eq_of_toNat_eq (by simp; omega)
    · intro h
      rw [h]; simp; omega
  unfold transform?
  split
  · rename_i h
    rw [hcode 0 (by omega)] at h
    cases m <;> simp [h]
  · rename_i h
    rw [hcode 1 (by omega)] at h
    cases m <;> simp [h, eq_comm]
  · rename_i h
    rw [hcode 2 (by omega)] at h
    cases m <;> simp [h]
  · rename_i h
    rw [hcode 3 (by omega)] at h
    cases m <;> simp [h, eq_comm]
  · rename_i h0 h1 h2 h3
    rw [hcode 0 (by omega)] at h0
    rw [hcode 1 (by omega)] at h1
    rw [hcode 2 (by omega)] at h2
    rw [hcode 3 (by omega)] at h3
    cases m <;> simp_all

theorem scanEntry?_eq_some (x : ScanEntryArgs) (e : ScanEntry) :
    scanEntry? x = some e ↔ x.input.toNat = e.input.val ∧ x.dest.toNat = e.dest.val ∧ x.gain = e.gain ∧ x.offset = e.offset ∧
      x.rail = if e.rail then 0x01 else 0x00 := by
  rw [← lineIx?_eq_some, ← pointIx?_eq_some, ← twoWay?_eq_some]
  unfold scanEntry?
  obtain ⟨input, dest, gain, offset, rail⟩ := e
  cases lineIx? x.input <;> cases pointIx? x.dest <;> cases twoWay? x.rail <;> simp

/-- A check made of a whole list passes exactly when every element passes. -/
theorem allSome_eq_some {α β : Type} (f : α → Option β) (xs : List α) (ys : List β) :
    allSome f xs = some ys ↔ xs.length = ys.length ∧ ∀ z ∈ xs.zip ys, f z.1 = some z.2 := by
  induction xs generalizing ys with
  | nil => cases ys <;> simp [allSome]
  | cons x xs ih =>
    unfold allSome
    cases ys with
    | nil => split <;> simp
    | cons y ys =>
      cases hx : f x with
      | none => simp [hx]
      | some z =>
        cases hxs : allSome f xs with
        | none =>
          have := ih ys
          rw [hxs] at this
          simp only [reduceCtorEq, false_iff] at this
          simp only [reduceCtorEq, false_iff, List.length_cons, Nat.add_right_cancel_iff, List.zip_cons_cons]
          exact fun h => this ⟨h.1, fun w hw => h.2 w (List.mem_cons_of_mem _ hw)⟩
        | some zs =>
          have := ih ys
          rw [hxs] at this
          simp only [Option.some.injEq] at this
          simp only [Option.some.injEq, List.cons.injEq, this, List.length_cons, Nat.add_right_cancel_iff, List.zip_cons_cons,
            List.forall_mem_cons, hx]
          constructor
          · exact fun h => ⟨h.2.1, h.1, h.2.2⟩
          · exact fun h => ⟨h.2.1, h.1, h.2.2⟩

/-! ### Claim rights (R193) -/

/-- Claim rights are read from a byte exactly when bits 0 to 4 stand for A, B, C, D and INTERNAL. -/
theorem eq_rightsOf (r : Rights) (b : Byte) : r = rightsOf b ↔
    r.ports.a = b.getLsbD 0 ∧ r.ports.b = b.getLsbD 1 ∧ r.ports.c = b.getLsbD 2 ∧ r.ports.d = b.getLsbD 3 ∧
      r.internal = b.getLsbD 4 := by
  obtain ⟨⟨_, _, _, _⟩, _⟩ := r
  simp only [rightsOf, Rights.mk.injEq, PortSet, PerPort.mk.injEq, and_assoc]

/-- The rights of a byte are empty exactly when bits 0 to 4 are all clear. -/
theorem rightsOf_isEmpty_eq_false (b : Byte) : (rightsOf b).isEmpty = false ↔ b.extractLsb' 0 5 ≠ 0 := by
  revert b
  decide +kernel

/-! ### Bytes as fields (R193) -/

theorem fields_nil : fields [] = [] := rfl

theorem fields_cons (f : Nat × Nat) (fs : List (Nat × Nat)) : fields (f :: fs) = fields [f] ++ fields fs := by
  simp [fields]

theorem fields_append (fs gs : List (Nat × Nat)) : fields (fs ++ gs) = fields fs ++ fields gs := by
  simp [fields]

theorem fields_one (n : Nat) : fields [(1, n)] = num1 n := by
  simp [fields, num1, List.range_succ]

theorem fields_byte (b : Byte) : fields [(1, b.toNat)] = [b] := by
  simp [fields, List.range_succ]

theorem fields_two_eq (n : Nat) : fields [(2, n)] = [BitVec.ofNat 8 (n / 256), BitVec.ofNat 8 n] := by
  simp [fields, List.range_succ]

theorem fields_four_eq (n : Nat) :
    fields [(4, n)] =
      [BitVec.ofNat 8 (n / 16777216), BitVec.ofNat 8 (n / 65536), BitVec.ofNat 8 (n / 256), BitVec.ofNat 8 n] := by
  simp [fields, List.range_succ]

theorem bytes2_eq (h : Half) : bytes2 h = [BitVec.ofNat 8 (h.toNat / 256), BitVec.ofNat 8 h.toNat] := by
  simp [bytes2, BitVec.extractLsb', Nat.shiftRight_eq_div_pow]

theorem fields_half (h : Half) : fields [(2, h.toNat)] = bytes2 h := by rw [fields_two_eq, bytes2_eq]

theorem fields_two (n : Nat) : fields [(2, n)] = num2 n := by
  rw [fields_two_eq, num2, bytes2_eq]
  congr 1
  · exact BitVec.eq_of_toNat_eq (by simp only [BitVec.toNat_ofNat]; omega)
  · congr 1
    exact BitVec.eq_of_toNat_eq (by simp only [BitVec.toNat_ofNat]; omega)

theorem fields_word (w : Word) : fields [(4, w.toNat)] = bytes4 w := by
  rw [fields_four_eq, bytes4, bytes2_eq, bytes2_eq]
  have hw := w.isLt
  simp only [List.cons_append, List.nil_append, BitVec.extractLsb'_toNat, Nat.shiftRight_eq_div_pow]
  congr 1
  · exact BitVec.eq_of_toNat_eq (by simp only [BitVec.toNat_ofNat]; omega)
  congr 1
  · exact BitVec.eq_of_toNat_eq (by simp only [BitVec.toNat_ofNat]; omega)
  congr 1
  · exact BitVec.eq_of_toNat_eq (by simp only [BitVec.toNat_ofNat]; omega)
  · congr 1
    exact BitVec.eq_of_toNat_eq (by simp only [BitVec.toNat_ofNat]; omega)

theorem fields_four (n : Nat) : fields [(4, n)] = bytes4 (BitVec.ofNat 32 n) := by
  rw [← fields_word, fields_four_eq, fields_four_eq, BitVec.toNat_ofNat]
  congr 1
  · exact BitVec.eq_of_toNat_eq (by simp only [BitVec.toNat_ofNat]; omega)
  congr 1
  · exact BitVec.eq_of_toNat_eq (by simp only [BitVec.toNat_ofNat]; omega)
  congr 1
  · exact BitVec.eq_of_toNat_eq (by simp only [BitVec.toNat_ofNat]; omega)
  · congr 1
    exact BitVec.eq_of_toNat_eq (by simp only [BitVec.toNat_ofNat]; omega)

end Sys2Proof.Machine
end

