-- ==== Sys2Proof/Laws/Footprints.lean ====
section
/-! SUPPORT. Laws/Footprints.lean: what each composed operation and each command can change at all: with those fields put back, the
state is the one before. A statement that a command leaves a field alone follows by taking that field of both sides. -/

namespace Sys2Proof.Machine

/-! ### Composed operations -/

/-- An accepted port write. -/
theorem State.portWrite_frame (s : State) (p : Port) (i : PointIx) (pt : Point) (v : Word) (q : Quality) (c : Bool) :
    { s.portWrite p i pt v q c with points := s.points, counts := s.counts, notices := s.notices, outputs := s.outputs, orders := s.orders, executor := s.executor, scanner := s.scanner } = s := by
  unfold State.portWrite
  rw [State.storeAndRaise_eq, State.store_eq]
  dsimp only
  split
  · unfold State.releasePoint
    split
    · rfl
    · rw [State.raiseAll_eq]; rfl
  · rfl

/-- One WRITE entry. -/
theorem State.takeWrite_frame (s : State) (p : Port) (e : WriteEntry) :
    { (s.takeWrite p e).1 with points := s.points, counts := s.counts, notices := s.notices, outputs := s.outputs, orders := s.orders, executor := s.executor, scanner := s.scanner } = s := by
  unfold State.takeWrite
  split
  · rfl
  · dsimp only; split
    · rfl
    · split
      · rfl
      · exact portWrite_frame ..

/-- The entries of a WRITE. -/
theorem State.takeWrites_frame (s : State) (p : Port) (es : List WriteEntry) :
    { (s.takeWrites p es).1 with points := s.points, counts := s.counts, notices := s.notices, outputs := s.outputs, orders := s.orders, executor := s.executor, scanner := s.scanner } = s := by
  induction es generalizing s with
  | nil => rfl
  | cons e es ih =>
    have h1 := State.takeWrite_frame s p e
    have h2 := ih (s.takeWrite p e).1
    simp only [State.takeWrites]
    generalize (s.takeWrite p e).1 = w at *
    generalize (w.takeWrites p es).1 = z at *
    rw [← h2] at h1
    rw [← h1]

/-- One entry of a commit. -/
theorem State.commitEntry_frame (s : State) (e : BatchEntry) :
    { s.commitEntry e with points := s.points, notices := s.notices, outputs := s.outputs, orders := s.orders, executor := s.executor, scanner := s.scanner } = s := by
  unfold State.commitEntry
  split
  · rfl
  · dsimp only; rw [State.storeAndRaise_eq, State.store_eq]

/-- The one path of definition, redefinition and removal. -/
theorem State.replaceSlot_eq (s : State) (i : PointIx) (x : Option Point) :
    s.replaceSlot i x = { s with
      points := s.points.set i.val x
      outputs := (((s.dropSubs i).setSlot i x).driveLines fun j => j = i).outputs
      notices := (s.dropSubs i).notices.map fun q u => u.takeAll (s.setSlot i x) (raisedFor q ((s.subscribers i).map fun q => ⟨q, .point i, .undefined⟩)) } := by
  unfold State.replaceSlot
  rw [State.raiseAll_eq]
  rfl

/-- A fold keeps what each of its steps keeps. -/
theorem foldl_field {α β} (g : State → β) (f : State → α → State) (h : ∀ s a, g (f s a) = g s) (l : List α) (s : State) :
    g (l.foldl f s) = g s := by
  induction l generalizing s with
  | nil => rfl
  | cons a l ih => rw [List.foldl_cons, ih, h]

/-- The entries of a list keep what the effect of each keeps. -/
theorem takeList_field {β} (g : State → β) (f : State → PointIx → State) (h : ∀ s a, g (f s a) = g s) (p : Port) (l) (s : State) :
    g (State.takeList f p s l).1 = g s := by
  induction l generalizing s with
  | nil => rfl
  | cons a l ih =>
    unfold State.takeList
    split
    · show g (State.takeList f p (f s a) l).1 = _; rw [ih, h]
    · show g (State.takeList f p s l).1 = _; rw [ih]

/-- A granted CLAIM. -/
theorem State.grantClaim_frame (s : State) c ixs : { s.grantClaim c ixs with points := s.points, counts := s.counts } = s := by
  unfold State.grantClaim
  dsimp only
  have h := foldl_field (fun s' => { s' with points := s.points, counts := s.counts }) (fun (s : State) i => s.modifySlot i fun pt => { pt with holder := Holder.port c }) (fun _ _ => rfl) ixs s
  exact h

/-- A CLAIM past its argument check. -/
theorem State.takeClaim_frame (s : State) p a m i : { (s.takeClaim p a m i).1 with points := s.points, counts := s.counts } = s := by
  unfold State.takeClaim State.placeWait
  repeat' (first | split | (dsimp only; split))
  all_goals first | rfl | exact State.grantClaim_frame ..

/-- A RELEASE of a list. -/
theorem releaseList_frame (p : Port) (s : State) ixs : { (State.takeList (fun s i => s.releasePoint p i) p s ixs).1 with points := s.points, counts := s.counts, notices := s.notices } = s := by
  have h := takeList_field (fun s' => { s' with points := s.points, counts := s.counts, notices := s.notices }) (fun s i => s.releasePoint p i) (fun s' i => by
    unfold State.releasePoint; split
    · rfl
    · rw [State.raiseAll_eq]; rfl) p ixs s
  exact h

/-- A RENEW of a list. -/
theorem renewList_frame (p : Port) (s : State) ixs : { (State.takeList (fun s i => s.modifySlot i fun pt => pt.renewFor p) p s ixs).1 with points := s.points } = s := by
  exact takeList_field (fun s' => { s' with points := s.points }) (fun s i => s.modifySlot i fun pt => pt.renewFor p) (fun s' i => rfl) p ixs s

/-- A commit. -/
theorem State.commit_frame (s : State) p b r : { s.commit p b r with points := s.points, counts := s.counts, batches := s.batches, notices := s.notices, outputs := s.outputs, orders := s.orders, executor := s.executor, scanner := s.scanner } = s := by
  unfold State.commit
  dsimp only
  let g : State → State := fun s' => { s' with points := s.points, counts := s.counts, batches := s.batches, notices := s.notices, outputs := s.outputs, orders := s.orders, executor := s.executor, scanner := s.scanner }
  have h1 : ∀ (l : List PointIx) (w : State), g (l.foldl (fun s i => s.releasePoint p i) w) = g w := fun l w => by
    apply foldl_field g
    intro s' i
    unfold State.releasePoint; split
    · rfl
    · rw [State.raiseAll_eq]; rfl
  have h2 : ∀ (l : Batch) (w : State), g (l.foldl State.commitEntry w) = g w := fun l w => by
    apply foldl_field g
    intro s' e
    have := congrArg g (State.commitEntry_frame s' e)
    exact this
  have h3 := h1 (s.commitReleases b r) (b.foldl State.commitEntry s)
  rw [h2] at h3
  generalize (s.commitReleases b r).foldl (fun s i => s.releasePoint p i) (b.foldl State.commitEntry s) = z at h3 ⊢
  exact h3

/-- A copy at the point table. -/
theorem State.applyCopy_frame (s : State) x : { s.applyCopy x with points := s.points, notices := s.notices, outputs := s.outputs, orders := s.orders, executor := s.executor, scanner := s.scanner } = s := by
  cases x <;> simp only [State.applyCopy]
  rw [State.store_eq]

/-- The executor's choice. -/
theorem State.startRun_frame (s : State) : { s.startRun with orders := s.orders, executor := s.executor } = s := by
  rw [State.startRun_eq]

/-- A trigger delivered. -/
theorem State.deliver_frame (s : State) t : { s.deliver t with orders := s.orders, executor := s.executor, scanner := s.scanner } = s := by
  rw [State.deliver_eq]

/-- The end of a run. -/
theorem State.endRun_frame (s : State) n o : { s.endRun n o with points := s.points, orders := s.orders, executor := s.executor, scanner := s.scanner } = s := by
  unfold State.endRun State.freeExecutor State.pulse
  rw [State.startRun_eq]
  dsimp only
  split
  · split <;> rfl
  · rw [State.deliver_eq]; split <;> rfl

/-- The event of a copy. -/
theorem State.takeCopy_frame (s : State) r o : { s.takeCopy r o with points := s.points, notices := s.notices, outputs := s.outputs, orders := s.orders, executor := s.executor, scanner := s.scanner } = s := by
  unfold State.takeCopy
  dsimp only
  have h := State.applyCopy_frame s (s.copyOutcome r.order o r.position)
  generalize s.applyCopy (s.copyOutcome r.order o r.position) = w at *
  split
  · unfold State.freeExecutor; rw [State.startRun_eq]; exact h
  · split
    · rw [State.raiseAll_eq]; unfold State.freeExecutor; rw [State.startRun_eq]; exact h
    · split
      · rw [State.raiseAll_eq]; exact h
      · rw [State.raiseAll_eq]
        have h2 := State.endRun_frame (w.modifyOrder r.order fun o' => o'.report (s.copyOutcome r.order o r.position)) r.order ‹_›
        generalize State.endRun _ _ _ = z at *
        rw [← h]
        have h3 := congrArg (fun x : State => { x with notices := s.notices, outputs := s.outputs, points := s.points, orders := s.orders, executor := s.executor, scanner := s.scanner }) h2
        exact h3

/-- The write of a conversion result. -/
theorem State.scanWrite_frame (s : State) e raw : { (s.scanWrite e raw).1 with points := s.points, notices := s.notices, outputs := s.outputs, orders := s.orders, executor := s.executor, scanner := s.scanner } = s := by
  unfold State.scanWrite; split
  · rfl
  · dsimp only; rw [State.store_eq]

/-- What follows a completion. -/
theorem State.nextConversion_frame (s : State) a b : { s.nextConversion a b with orders := s.orders, executor := s.executor, scanner := s.scanner } = s := by
  unfold State.nextConversion State.endPass
  split
  · rfl
  · dsimp only; rw [State.deliverToOrders_eq]

/-! ### Commands -/

/-- What the effect of an event and the attention lines put back, its command puts back. -/
theorem frame_of_event {g : State → State} {due : Bool} {s t : State} {f : State → State} (hg : g s = s) (hf : g (f s).settle = s)
    (h : event due s f = .next t) : g t = s := event_keeps (P := fun t => g t = s) hg (fun _ _ => hf) h

/-- The same for the event of a request. -/
theorem frame_of_request {g : State → State} {p : Port} {r : Request} {s t : State} {f : State → State} (hg : g s = s) (hf : g (f s).settle = s)
    (h : onRequest p r s f = .next t) : g t = s := onRequest_keeps (P := fun t => g t = s) hg (fun _ => hf) h

/-- What `selectFalling` can change. -/
theorem execSelectFalling_frame {s t : State} {p} {x} (h : exec (.selectFalling p x) s = .next t) : { t with ports := s.ports } = s := by
  replace h : Sys2Proof.Machine.execSelectFalling p x s = .next t := h
  unfold Sys2Proof.Machine.execSelectFalling at h
  refine frame_of_event (g := fun t => { t with ports := s.ports }) rfl ?_ h
  all_goals (repeat' (first | split | (dsimp only; split)))
  all_goals rfl

/-- What `exchangeEnd` can change. -/
theorem execExchangeEnd_frame {s t : State} {p} {bytes} {spareBits} (h : exec (.exchangeEnd p bytes spareBits) s = .next t) : { t with ports := s.ports } = s := by
  replace h : Sys2Proof.Machine.execExchangeEnd p bytes spareBits s = .next t := h
  unfold Sys2Proof.Machine.execExchangeEnd at h
  refine frame_of_event (g := fun t => { t with ports := s.ports }) rfl ?_ h
  split
  · rfl
  · unfold State.endExchange
    split <;> rfl

/-- What `read` can change. -/
theorem execRead_frame {s t : State} {p} {x} (h : exec (.read p x) s = .next t) : { t with ports := s.ports } = s := by
  replace h : Sys2Proof.Machine.execRead p x s = .next t := h
  unfold Sys2Proof.Machine.execRead at h
  refine frame_of_request (g := fun t => { t with ports := s.ports }) rfl ?_ h
  all_goals (repeat' (first | split | (dsimp only; split)))
  all_goals rfl

/-- What `write` can change. -/
theorem execWrite_frame {s t : State} {p} {x} (h : exec (.write p x) s = .next t) : { t with points := s.points, counts := s.counts, notices := s.notices, outputs := s.outputs, orders := s.orders, executor := s.executor, scanner := s.scanner, ports := s.ports } = s := by
  replace h : Sys2Proof.Machine.execWrite p x s = .next t := h
  unfold Sys2Proof.Machine.execWrite at h
  refine frame_of_request (g := fun t => { t with points := s.points, counts := s.counts, notices := s.notices, outputs := s.outputs, orders := s.orders, executor := s.executor, scanner := s.scanner, ports := s.ports }) rfl ?_ h
  split
  · rfl
  · have h := State.takeWrites_frame s p ‹_›
    generalize State.takeWrites _ _ _ = z at *
    obtain ⟨w, rs⟩ := z
    exact congrArg (fun x : State => { x with ports := s.ports }) h

/-- What `define` can change. -/
theorem execDefine_frame {s t : State} {p} {x} (h : exec (.define p x) s = .next t) : { t with points := s.points, notices := s.notices, outputs := s.outputs, ports := s.ports } = s := by
  replace h : Sys2Proof.Machine.execDefine p x s = .next t := h
  unfold Sys2Proof.Machine.execDefine at h
  refine frame_of_request (g := fun t => { t with points := s.points, notices := s.notices, outputs := s.outputs, ports := s.ports }) rfl ?_ h
  (repeat' (first | split | (dsimp only; split))) <;> first | rfl | (rw [State.replaceSlot_eq]; rfl)

/-- What `undefine` can change. -/
theorem execUndefine_frame {s t : State} {p} {x} (h : exec (.undefine p x) s = .next t) : { t with points := s.points, notices := s.notices, outputs := s.outputs, ports := s.ports } = s := by
  replace h : Sys2Proof.Machine.execUndefine p x s = .next t := h
  unfold Sys2Proof.Machine.execUndefine at h
  refine frame_of_request (g := fun t => { t with points := s.points, notices := s.notices, outputs := s.outputs, ports := s.ports }) rfl ?_ h
  (repeat' (first | split | (dsimp only; split))) <;> first | rfl | (rw [State.replaceSlot_eq]; rfl)

/-- What `tableReset` can change. -/
theorem execTableReset_frame {s t : State} {p} (h : exec (.tableReset p) s = .next t) : { t with points := s.points, epoch := s.epoch, counts := s.counts, batches := s.batches, notices := s.notices, outputs := s.outputs, orders := s.orders, executor := s.executor, scanner := s.scanner, timers := s.timers, ports := s.ports } = s := by
  replace h : Sys2Proof.Machine.execTableReset p s = .next t := h
  unfold Sys2Proof.Machine.execTableReset at h
  refine frame_of_request (g := fun t => { t with points := s.points, epoch := s.epoch, counts := s.counts, batches := s.batches, notices := s.notices, outputs := s.outputs, orders := s.orders, executor := s.executor, scanner := s.scanner, timers := s.timers, ports := s.ports }) rfl ?_ h
  all_goals (repeat' (first | split | (dsimp only; split)))
  all_goals rfl

/-- What `claim` can change. -/
theorem execClaim_frame {s t : State} {p} {x} (h : exec (.claim p x) s = .next t) : { t with points := s.points, counts := s.counts, ports := s.ports } = s := by
  replace h : Sys2Proof.Machine.execClaim p x s = .next t := h
  unfold Sys2Proof.Machine.execClaim at h
  refine frame_of_request (g := fun t => { t with points := s.points, counts := s.counts, ports := s.ports }) rfl ?_ h
  split
  · split
    · rfl
    · have h := State.takeClaim_frame s p x ‹_› ‹_›
      generalize State.takeClaim _ _ _ _ _ = z at *
      obtain ⟨w, st, b⟩ := z
      exact congrArg (fun x : State => { x with ports := s.ports }) h
  · rfl

/-- What `release` can change. -/
theorem execRelease_frame {s t : State} {p} {x} (h : exec (.release p x) s = .next t) : { t with points := s.points, counts := s.counts, notices := s.notices, ports := s.ports } = s := by
  replace h : Sys2Proof.Machine.execRelease p x s = .next t := h
  unfold Sys2Proof.Machine.execRelease at h
  refine frame_of_request (g := fun t => { t with points := s.points, counts := s.counts, notices := s.notices, ports := s.ports }) rfl ?_ h
  split
  · rfl
  · have h := releaseList_frame p s ‹_›
    generalize State.takeList _ _ _ _ = z at *
    obtain ⟨w, rs⟩ := z
    exact congrArg (fun x : State => { x with ports := s.ports }) h
  · unfold State.releaseAll
    dsimp only
    rw [State.raiseAll_eq]
    rfl

/-- What `renew` can change. -/
theorem execRenew_frame {s t : State} {p} {x} (h : exec (.renew p x) s = .next t) : { t with points := s.points, ports := s.ports } = s := by
  replace h : Sys2Proof.Machine.execRenew p x s = .next t := h
  unfold Sys2Proof.Machine.execRenew at h
  refine frame_of_request (g := fun t => { t with points := s.points, ports := s.ports }) rfl ?_ h
  split
  · rfl
  · have h := renewList_frame p s ‹_›
    generalize State.takeList _ _ _ _ = z at *
    obtain ⟨w, rs⟩ := z
    exact congrArg (fun x : State => { x with ports := s.ports }) h
  · rfl

/-- What `withdraw` can change. -/
theorem execWithdraw_frame {s t : State} {p} {x} (h : exec (.withdraw p x) s = .next t) : { t with points := s.points, counts := s.counts, ports := s.ports } = s := by
  replace h : Sys2Proof.Machine.execWithdraw p x s = .next t := h
  unfold Sys2Proof.Machine.execWithdraw at h
  refine frame_of_request (g := fun t => { t with points := s.points, counts := s.counts, ports := s.ports }) rfl ?_ h
  all_goals (repeat' (first | split | (dsimp only; split)))
  all_goals rfl

/-- What `tick` can change. -/
theorem execTick_frame {s t : State}  (h : exec .tick s = .next t) : { t with tickGen := s.tickGen, timers := s.timers, ports := s.ports } = s := by
  replace h : Sys2Proof.Machine.execTick  s = .next t := h
  unfold Sys2Proof.Machine.execTick at h
  refine frame_of_event (g := fun t => { t with tickGen := s.tickGen, timers := s.timers, ports := s.ports }) rfl ?_ h
  all_goals (repeat' (first | split | (dsimp only; split)))
  all_goals rfl

/-- What `tickAgeing` can change. -/
theorem execTickAgeing_frame {s t : State}  (h : exec .tickAgeing s = .next t) : { t with points := s.points, outputs := s.outputs, notices := s.notices, tickGen := s.tickGen, ports := s.ports } = s := by
  replace h : Sys2Proof.Machine.execTickAgeing  s = .next t := h
  unfold Sys2Proof.Machine.execTickAgeing at h
  refine frame_of_event (g := fun t => { t with points := s.points, outputs := s.outputs, notices := s.notices, tickGen := s.tickGen, ports := s.ports }) rfl ?_ h
  unfold State.ageTable
  dsimp only
  rw [State.raiseAll_eq]
  rfl

/-- What `pointStale` can change. -/
theorem execPointStale_frame {s t : State} {x} (h : exec (.pointStale x) s = .next t) : { t with points := s.points, outputs := s.outputs, notices := s.notices, tickGen := s.tickGen, ports := s.ports } = s := by
  replace h : Sys2Proof.Machine.execPointStale x s = .next t := h
  unfold Sys2Proof.Machine.execPointStale at h
  refine frame_of_event (g := fun t => { t with points := s.points, outputs := s.outputs, notices := s.notices, tickGen := s.tickGen, ports := s.ports }) rfl ?_ h
  unfold State.ageTable
  dsimp only
  rw [State.raiseAll_eq]
  rfl

/-- What `claimArbiterTick` can change. -/
theorem execClaimArbiterTick_frame {s t : State}  (h : exec .claimArbiterTick s = .next t) : { t with points := s.points, counts := s.counts, notices := s.notices, tickGen := s.tickGen, ports := s.ports } = s := by
  replace h : Sys2Proof.Machine.execClaimArbiterTick  s = .next t := h
  unfold Sys2Proof.Machine.execClaimArbiterTick at h
  refine frame_of_event (g := fun t => { t with points := s.points, counts := s.counts, notices := s.notices, tickGen := s.tickGen, ports := s.ports }) rfl ?_ h
  unfold State.arbiterTick
  dsimp only
  rw [State.raiseAll_eq]
  rfl

/-- What `leaseLapse` can change. -/
theorem execLeaseLapse_frame {s t : State} {x} (h : exec (.leaseLapse x) s = .next t) : { t with points := s.points, counts := s.counts, notices := s.notices, tickGen := s.tickGen, ports := s.ports } = s := by
  replace h : Sys2Proof.Machine.execLeaseLapse x s = .next t := h
  unfold Sys2Proof.Machine.execLeaseLapse at h
  refine frame_of_event (g := fun t => { t with points := s.points, counts := s.counts, notices := s.notices, tickGen := s.tickGen, ports := s.ports }) rfl ?_ h
  unfold State.arbiterTick
  dsimp only
  rw [State.raiseAll_eq]
  rfl

/-- What `waitExpiry` can change. -/
theorem execWaitExpiry_frame {s t : State} {x} {port} (h : exec (.waitExpiry x port) s = .next t) : { t with points := s.points, counts := s.counts, notices := s.notices, tickGen := s.tickGen, ports := s.ports } = s := by
  replace h : Sys2Proof.Machine.execWaitExpiry x port s = .next t := h
  unfold Sys2Proof.Machine.execWaitExpiry at h
  refine frame_of_event (g := fun t => { t with points := s.points, counts := s.counts, notices := s.notices, tickGen := s.tickGen, ports := s.ports }) rfl ?_ h
  unfold State.arbiterTick
  dsimp only
  rw [State.raiseAll_eq]
  rfl

/-- What `timerTick` can change. -/
theorem execTimerTick_frame {s t : State} {x} (h : exec (.timerTick x) s = .next t) : { t with timers := s.timers, orders := s.orders, executor := s.executor, scanner := s.scanner, ports := s.ports } = s := by
  replace h : Sys2Proof.Machine.execTimerTick x s = .next t := h
  unfold Sys2Proof.Machine.execTimerTick at h
  refine frame_of_event (g := fun t => { t with timers := s.timers, orders := s.orders, executor := s.executor, scanner := s.scanner, ports := s.ports }) rfl ?_ h
  unfold State.timerTick
  dsimp only
  split
  · rw [State.deliver_eq]
    rfl
  · rfl

/-- What `timerExpiry` can change. -/
theorem execTimerExpiry_frame {s t : State} {x} (h : exec (.timerExpiry x) s = .next t) : { t with timers := s.timers, orders := s.orders, executor := s.executor, scanner := s.scanner, ports := s.ports } = s := by
  replace h : Sys2Proof.Machine.execTimerExpiry x s = .next t := h
  unfold Sys2Proof.Machine.execTimerExpiry at h
  refine frame_of_event (g := fun t => { t with timers := s.timers, orders := s.orders, executor := s.executor, scanner := s.scanner, ports := s.ports }) rfl ?_ h
  unfold State.timerTick
  dsimp only
  split
  · rw [State.deliver_eq]
    rfl
  · rfl

/-- What `lineEdge` can change. -/
theorem execLineEdge_frame {s t : State} {x} {level} (h : exec (.lineEdge x level) s = .next t) : { t with lines := s.lines, orders := s.orders, executor := s.executor, scanner := s.scanner, ports := s.ports } = s := by
  replace h : Sys2Proof.Machine.execLineEdge x level s = .next t := h
  unfold Sys2Proof.Machine.execLineEdge at h
  refine frame_of_event (g := fun t => { t with lines := s.lines, orders := s.orders, executor := s.executor, scanner := s.scanner, ports := s.ports }) rfl ?_ h
  unfold State.takeEdge
  dsimp only
  split
  · rw [State.deliver_eq]
    rfl
  · rfl

/-- What `batchOpen` can change. -/
theorem execBatchOpen_frame {s t : State} {p} (h : exec (.batchOpen p) s = .next t) : { t with batches := s.batches, ports := s.ports } = s := by
  replace h : Sys2Proof.Machine.execBatchOpen p s = .next t := h
  unfold Sys2Proof.Machine.execBatchOpen at h
  refine frame_of_request (g := fun t => { t with batches := s.batches, ports := s.ports }) rfl ?_ h
  all_goals (repeat' (first | split | (dsimp only; split)))
  all_goals rfl

/-- What `batchPut` can change. -/
theorem execBatchPut_frame {s t : State} {p} {x} (h : exec (.batchPut p x) s = .next t) : { t with batches := s.batches, ports := s.ports } = s := by
  replace h : Sys2Proof.Machine.execBatchPut p x s = .next t := h
  unfold Sys2Proof.Machine.execBatchPut at h
  refine frame_of_request (g := fun t => { t with batches := s.batches, ports := s.ports }) rfl ?_ h
  all_goals (repeat' (first | split | (dsimp only; split)))
  all_goals rfl

/-- What `batchCommit` can change. -/
theorem execBatchCommit_frame {s t : State} {p} {x} (h : exec (.batchCommit p x) s = .next t) : { t with points := s.points, counts := s.counts, notices := s.notices, outputs := s.outputs, orders := s.orders, executor := s.executor, scanner := s.scanner, batches := s.batches, ports := s.ports } = s := by
  replace h : Sys2Proof.Machine.execBatchCommit p x s = .next t := h
  unfold Sys2Proof.Machine.execBatchCommit at h
  refine frame_of_request (g := fun t => { t with points := s.points, counts := s.counts, notices := s.notices, outputs := s.outputs, orders := s.orders, executor := s.executor, scanner := s.scanner, batches := s.batches, ports := s.ports }) rfl ?_ h
  split
  · rfl
  · split
    · rfl
    · have h := State.commit_frame s p ‹_› x
      generalize State.commit _ _ _ _ = w at *
      generalize Body.committed _ _ _ = b
      exact congrArg (fun x : State => { x with ports := s.ports }) h

/-- What `batchDiscard` can change. -/
theorem execBatchDiscard_frame {s t : State} {p} (h : exec (.batchDiscard p) s = .next t) : { t with batches := s.batches, ports := s.ports } = s := by
  replace h : Sys2Proof.Machine.execBatchDiscard p s = .next t := h
  unfold Sys2Proof.Machine.execBatchDiscard at h
  refine frame_of_request (g := fun t => { t with batches := s.batches, ports := s.ports }) rfl ?_ h
  all_goals (repeat' (first | split | (dsimp only; split)))
  all_goals rfl

/-- What `subscribe` can change. -/
theorem execSubscribe_frame {s t : State} {p} {x} (h : exec (.subscribe p x) s = .next t) : { t with notices := s.notices, ports := s.ports } = s := by
  replace h : Sys2Proof.Machine.execSubscribe p x s = .next t := h
  unfold Sys2Proof.Machine.execSubscribe at h
  refine frame_of_request (g := fun t => { t with notices := s.notices, ports := s.ports }) rfl ?_ h
  all_goals (repeat' (first | split | (dsimp only; split)))
  all_goals rfl

/-- What `unsubscribe` can change. -/
theorem execUnsubscribe_frame {s t : State} {p} {x} (h : exec (.unsubscribe p x) s = .next t) : { t with notices := s.notices, ports := s.ports } = s := by
  replace h : Sys2Proof.Machine.execUnsubscribe p x s = .next t := h
  unfold Sys2Proof.Machine.execUnsubscribe at h
  refine frame_of_request (g := fun t => { t with notices := s.notices, ports := s.ports }) rfl ?_ h
  all_goals (repeat' (first | split | (dsimp only; split)))
  all_goals rfl

/-- What `fetch` can change. -/
theorem execFetch_frame {s t : State} {p} {x} (h : exec (.fetch p x) s = .next t) : { t with notices := s.notices, ports := s.ports } = s := by
  replace h : Sys2Proof.Machine.execFetch p x s = .next t := h
  unfold Sys2Proof.Machine.execFetch at h
  refine frame_of_request (g := fun t => { t with notices := s.notices, ports := s.ports }) rfl ?_ h
  all_goals (repeat' (first | split | (dsimp only; split)))
  all_goals rfl

/-- What `orderDefine` can change. -/
theorem execOrderDefine_frame {s t : State} {p} {order} {args} (h : exec (.orderDefine p order args) s = .next t) : { t with orders := s.orders, ports := s.ports } = s := by
  replace h : Sys2Proof.Machine.execOrderDefine p order args s = .next t := h
  unfold Sys2Proof.Machine.execOrderDefine at h
  refine frame_of_request (g := fun t => { t with orders := s.orders, ports := s.ports }) rfl ?_ h
  all_goals (repeat' (first | split | (dsimp only; split)))
  all_goals rfl

/-- What `orderArm` can change. -/
theorem execOrderArm_frame {s t : State} {p} {x} (h : exec (.orderArm p x) s = .next t) : { t with points := s.points, orders := s.orders, ports := s.ports } = s := by
  replace h : Sys2Proof.Machine.execOrderArm p x s = .next t := h
  unfold Sys2Proof.Machine.execOrderArm at h
  refine frame_of_request (g := fun t => { t with points := s.points, orders := s.orders, ports := s.ports }) rfl ?_ h
  (repeat' split) <;> first | rfl | (rw [State.grantInternal_eq]; rfl)

/-- What `orderDisarm` can change. -/
theorem execOrderDisarm_frame {s t : State} {p} {x} (h : exec (.orderDisarm p x) s = .next t) : { t with points := s.points, orders := s.orders, executor := s.executor, notices := s.notices, ports := s.ports } = s := by
  replace h : Sys2Proof.Machine.execOrderDisarm p x s = .next t := h
  unfold Sys2Proof.Machine.execOrderDisarm at h
  refine frame_of_request (g := fun t => { t with points := s.points, orders := s.orders, executor := s.executor, notices := s.notices, ports := s.ports }) rfl ?_ h
  (repeat' split) <;> first | (unfold State.disarmOrder; dsimp only; rw [State.raiseAll_eq]; rfl) | rfl

/-- What `orderFire` can change. -/
theorem execOrderFire_frame {s t : State} {p} {x} (h : exec (.orderFire p x) s = .next t) : { t with orders := s.orders, executor := s.executor, ports := s.ports } = s := by
  replace h : Sys2Proof.Machine.execOrderFire p x s = .next t := h
  unfold Sys2Proof.Machine.execOrderFire at h
  refine frame_of_request (g := fun t => { t with orders := s.orders, executor := s.executor, ports := s.ports }) rfl ?_ h
  (repeat' split) <;> first | rfl | (unfold State.fire; rw [State.startRun_eq]; rfl)

/-- What `orderQuery` can change. -/
theorem execOrderQuery_frame {s t : State} {p} {x} (h : exec (.orderQuery p x) s = .next t) : { t with ports := s.ports } = s := by
  replace h : Sys2Proof.Machine.execOrderQuery p x s = .next t := h
  unfold Sys2Proof.Machine.execOrderQuery at h
  refine frame_of_request (g := fun t => { t with ports := s.ports }) rfl ?_ h
  all_goals (repeat' (first | split | (dsimp only; split)))
  all_goals rfl

/-- What `orderClear` can change. -/
theorem execOrderClear_frame {s t : State} {p} {x} (h : exec (.orderClear p x) s = .next t) : { t with orders := s.orders, ports := s.ports } = s := by
  replace h : Sys2Proof.Machine.execOrderClear p x s = .next t := h
  unfold Sys2Proof.Machine.execOrderClear at h
  refine frame_of_request (g := fun t => { t with orders := s.orders, ports := s.ports }) rfl ?_ h
  all_goals (repeat' (first | split | (dsimp only; split)))
  all_goals rfl

/-- What `orderCopy` can change. -/
theorem execOrderCopy_frame {s t : State}  (h : exec .orderCopy s = .next t) : { t with points := s.points, notices := s.notices, outputs := s.outputs, orders := s.orders, executor := s.executor, scanner := s.scanner, ports := s.ports } = s := by
  replace h : Sys2Proof.Machine.execOrderCopy  s = .next t := h
  unfold Sys2Proof.Machine.execOrderCopy at h
  refine frame_of_event (g := fun t => { t with points := s.points, notices := s.notices, outputs := s.outputs, orders := s.orders, executor := s.executor, scanner := s.scanner, ports := s.ports }) rfl ?_ h
  split
  · rfl
  · split
    · unfold State.freeExecutor
      rw [State.startRun_eq]
      rfl
    · have h := State.takeCopy_frame s ‹_› ‹_›
      generalize State.takeCopy _ _ _ = w at *
      exact congrArg (fun x : State => { x with ports := s.ports }) h

/-- What `scanDefinePart` can change. -/
theorem execScanDefinePart_frame {s t : State} {p} {x} (h : exec (.scanDefinePart p x) s = .next t) : { t with ports := s.ports } = s := by
  replace h : Sys2Proof.Machine.execScanDefinePart p x s = .next t := h
  unfold Sys2Proof.Machine.execScanDefinePart at h
  refine frame_of_request (g := fun t => { t with ports := s.ports }) rfl ?_ h
  all_goals (repeat' (first | split | (dsimp only; split)))
  all_goals rfl

/-- What `scanDefine` can change. -/
theorem execScanDefine_frame {s t : State} {p} {x} (h : exec (.scanDefine p x) s = .next t) : { t with scanner := s.scanner, ports := s.ports } = s := by
  replace h : Sys2Proof.Machine.execScanDefine p x s = .next t := h
  unfold Sys2Proof.Machine.execScanDefine at h
  refine frame_of_request (g := fun t => { t with scanner := s.scanner, ports := s.ports }) rfl ?_ h
  all_goals (repeat' (first | split | (dsimp only; split)))
  all_goals rfl

/-- What `scanArm` can change. -/
theorem execScanArm_frame {s t : State} {p} (h : exec (.scanArm p) s = .next t) : { t with points := s.points, scanner := s.scanner, ports := s.ports } = s := by
  replace h : Sys2Proof.Machine.execScanArm p s = .next t := h
  unfold Sys2Proof.Machine.execScanArm at h
  refine frame_of_request (g := fun t => { t with points := s.points, scanner := s.scanner, ports := s.ports }) rfl ?_ h
  (repeat' (first | split | (dsimp only; split))) <;> first | rfl | (rw [State.grantInternal_eq]; rfl)

/-- What `scanStart` can change. -/
theorem execScanStart_frame {s t : State} {p} (h : exec (.scanStart p) s = .next t) : { t with scanner := s.scanner, ports := s.ports } = s := by
  replace h : Sys2Proof.Machine.execScanStart p s = .next t := h
  unfold Sys2Proof.Machine.execScanStart at h
  refine frame_of_request (g := fun t => { t with scanner := s.scanner, ports := s.ports }) rfl ?_ h
  all_goals (repeat' (first | split | (dsimp only; split)))
  all_goals rfl

/-- What `scanStop` can change. -/
theorem execScanStop_frame {s t : State} {p} (h : exec (.scanStop p) s = .next t) : { t with scanner := s.scanner, ports := s.ports } = s := by
  replace h : Sys2Proof.Machine.execScanStop p s = .next t := h
  unfold Sys2Proof.Machine.execScanStop at h
  refine frame_of_request (g := fun t => { t with scanner := s.scanner, ports := s.ports }) rfl ?_ h
  all_goals (repeat' (first | split | (dsimp only; split)))
  all_goals rfl

/-- What `scanDisarm` can change. -/
theorem execScanDisarm_frame {s t : State} {p} (h : exec (.scanDisarm p) s = .next t) : { t with points := s.points, scanner := s.scanner, notices := s.notices, ports := s.ports } = s := by
  replace h : Sys2Proof.Machine.execScanDisarm p s = .next t := h
  unfold Sys2Proof.Machine.execScanDisarm at h
  refine frame_of_request (g := fun t => { t with points := s.points, scanner := s.scanner, notices := s.notices, ports := s.ports }) rfl ?_ h
  (repeat' split) <;> first | (unfold State.disarmScanner; dsimp only; rw [State.raiseAll_eq]; rfl) | rfl

/-- What `scanQuery` can change. -/
theorem execScanQuery_frame {s t : State} {p} (h : exec (.scanQuery p) s = .next t) : { t with ports := s.ports } = s := by
  replace h : Sys2Proof.Machine.execScanQuery p s = .next t := h
  unfold Sys2Proof.Machine.execScanQuery at h
  refine frame_of_request (g := fun t => { t with ports := s.ports }) rfl ?_ h
  all_goals (repeat' (first | split | (dsimp only; split)))
  all_goals rfl

/-- What `conversionCompletion` can change. -/
theorem execConversionCompletion_frame {s t : State} {x} (h : exec (.conversionCompletion x) s = .next t) : { t with points := s.points, notices := s.notices, outputs := s.outputs, orders := s.orders, executor := s.executor, scanner := s.scanner, ports := s.ports } = s := by
  replace h : Sys2Proof.Machine.execConversionCompletion x s = .next t := h
  unfold Sys2Proof.Machine.execConversionCompletion at h
  refine frame_of_event (g := fun t => { t with points := s.points, notices := s.notices, outputs := s.outputs, orders := s.orders, executor := s.executor, scanner := s.scanner, ports := s.ports }) rfl ?_ h
  split
  · rfl
  · split
    · rfl
    · have h1 := State.scanWrite_frame s ‹_› x
      generalize State.scanWrite _ _ _ = z at *
      obtain ⟨w, rs⟩ := z
      dsimp only
      rw [State.raiseAll_eq]
      have h2 := State.nextConversion_frame w ‹Scanner›.current ‹Scanner›.entries.length
      generalize State.nextConversion _ _ _ = y at *
      have h3 := congrArg (fun t : State => { t with points := s.points, notices := s.notices, outputs := s.outputs, orders := s.orders, executor := s.executor, scanner := s.scanner, ports := s.ports }) h2
      exact h3.trans (by
        have h4 := congrArg (fun t : State => { t with ports := s.ports }) h1
        exact h4)

/-- What `tickSet` can change. -/
theorem execTickSet_frame {s t : State} {p} {period} {runState} (h : exec (.tickSet p period runState) s = .next t) : { t with tickGen := s.tickGen, ports := s.ports } = s := by
  replace h : Sys2Proof.Machine.execTickSet p period runState s = .next t := h
  unfold Sys2Proof.Machine.execTickSet at h
  refine frame_of_request (g := fun t => { t with tickGen := s.tickGen, ports := s.ports }) rfl ?_ h
  all_goals (repeat' (first | split | (dsimp only; split)))
  all_goals rfl

/-- What `timerSet` can change. -/
theorem execTimerSet_frame {s t : State} {p} {timer} {period} {mode} (h : exec (.timerSet p timer period mode) s = .next t) : { t with timers := s.timers, ports := s.ports } = s := by
  replace h : Sys2Proof.Machine.execTimerSet p timer period mode s = .next t := h
  unfold Sys2Proof.Machine.execTimerSet at h
  refine frame_of_request (g := fun t => { t with timers := s.timers, ports := s.ports }) rfl ?_ h
  all_goals (repeat' (first | split | (dsimp only; split)))
  all_goals rfl

/-- What `timerStop` can change. -/
theorem execTimerStop_frame {s t : State} {p} {x} (h : exec (.timerStop p x) s = .next t) : { t with timers := s.timers, ports := s.ports } = s := by
  replace h : Sys2Proof.Machine.execTimerStop p x s = .next t := h
  unfold Sys2Proof.Machine.execTimerStop at h
  refine frame_of_request (g := fun t => { t with timers := s.timers, ports := s.ports }) rfl ?_ h
  all_goals (repeat' (first | split | (dsimp only; split)))
  all_goals rfl

/-- What `lineSet` can change. -/
theorem execLineSet_frame {s t : State} {p} {line} {edge} (h : exec (.lineSet p line edge) s = .next t) : { t with lines := s.lines, ports := s.ports } = s := by
  replace h : Sys2Proof.Machine.execLineSet p line edge s = .next t := h
  unfold Sys2Proof.Machine.execLineSet at h
  refine frame_of_request (g := fun t => { t with lines := s.lines, ports := s.ports }) rfl ?_ h
  all_goals (repeat' (first | split | (dsimp only; split)))
  all_goals rfl

/-- What `outputBind` can change. -/
theorem execOutputBind_frame {s t : State} {p} {x} (h : exec (.outputBind p x) s = .next t) : { t with outputs := s.outputs, ports := s.ports } = s := by
  replace h : Sys2Proof.Machine.execOutputBind p x s = .next t := h
  unfold Sys2Proof.Machine.execOutputBind at h
  refine frame_of_request (g := fun t => { t with outputs := s.outputs, ports := s.ports }) rfl ?_ h
  all_goals (repeat' (first | split | (dsimp only; split)))
  all_goals rfl

/-- What `portReset` can change. -/
theorem execPortReset_frame {s t : State} {p} (h : exec (.portReset p) s = .next t) : { t with points := s.points, counts := s.counts, batches := s.batches, notices := s.notices, ports := s.ports } = s := by
  replace h : Sys2Proof.Machine.execPortReset p s = .next t := h
  unfold Sys2Proof.Machine.execPortReset at h
  refine frame_of_request (g := fun t => { t with points := s.points, counts := s.counts, batches := s.batches, notices := s.notices, ports := s.ports }) rfl ?_ h
  unfold State.resetOwnPort State.portReset
  dsimp only
  rw [State.raiseAll_eq]
  rfl

/-- What `forcePortReset` can change. -/
theorem execForcePortReset_frame {s t : State} {p} {x} (h : exec (.forcePortReset p x) s = .next t) : { t with points := s.points, counts := s.counts, batches := s.batches, notices := s.notices, ports := s.ports } = s := by
  replace h : Sys2Proof.Machine.execForcePortReset p x s = .next t := h
  unfold Sys2Proof.Machine.execForcePortReset at h
  refine frame_of_request (g := fun t => { t with points := s.points, counts := s.counts, batches := s.batches, notices := s.notices, ports := s.ports }) rfl ?_ h
  split
  · rfl
  · split
    · unfold State.resetOwnPort State.portReset
      dsimp only
      rw [State.raiseAll_eq]
      rfl
    · unfold State.portReset
      dsimp only
      rw [State.raiseAll_eq]
      rfl

/-- What `configGrant` can change. -/
theorem execConfigGrant_frame {s t : State} {p} {x} (h : exec (.configGrant p x) s = .next t) : { t with config := s.config, ports := s.ports } = s := by
  replace h : Sys2Proof.Machine.execConfigGrant p x s = .next t := h
  unfold Sys2Proof.Machine.execConfigGrant at h
  refine frame_of_request (g := fun t => { t with config := s.config, ports := s.ports }) rfl ?_ h
  all_goals (repeat' (first | split | (dsimp only; split)))
  all_goals rfl

/-- What `configRevoke` can change. -/
theorem execConfigRevoke_frame {s t : State} {p} {x} (h : exec (.configRevoke p x) s = .next t) : { t with config := s.config, ports := s.ports } = s := by
  replace h : Sys2Proof.Machine.execConfigRevoke p x s = .next t := h
  unfold Sys2Proof.Machine.execConfigRevoke at h
  refine frame_of_request (g := fun t => { t with config := s.config, ports := s.ports }) rfl ?_ h
  all_goals (repeat' (first | split | (dsimp only; split)))
  all_goals rfl

/-- What `attnSet` can change. -/
theorem execAttnSet_frame {s t : State} {p} {response} {notice} (h : exec (.attnSet p response notice) s = .next t) : { t with ports := s.ports } = s := by
  replace h : Sys2Proof.Machine.execAttnSet p response notice s = .next t := h
  unfold Sys2Proof.Machine.execAttnSet at h
  refine frame_of_request (g := fun t => { t with ports := s.ports }) rfl ?_ h
  all_goals (repeat' (first | split | (dsimp only; split)))
  all_goals rfl

/-- What `status` can change. -/
theorem execStatus_frame {s t : State} {p} (h : exec (.status p) s = .next t) : { t with ports := s.ports } = s := by
  replace h : Sys2Proof.Machine.execStatus p s = .next t := h
  unfold Sys2Proof.Machine.execStatus at h
  refine frame_of_request (g := fun t => { t with ports := s.ports }) rfl ?_ h
  all_goals (repeat' (first | split | (dsimp only; split)))
  all_goals rfl

/-- What `coldResetEnd` can change. -/
theorem execColdResetEnd_frame {s t : State} {x} (h : exec (.coldResetEnd x) s = .next t) : { t with held := s.held, tickGen := s.tickGen, lines := s.lines, ports := s.ports } = s := by
  simp only [exec, execColdResetEnd] at h
  split at h <;> (cases h; rfl)

end Sys2Proof.Machine
end

