-- ==== Sys2Proof/Laws/Kept.lean ====
section
/-! SUPPORT. Laws/Kept.lean: what each operation does to one slot, how an event or a request ends, and the principles by which a
property kept by the parts of a write is kept by WRITE, BATCH_COMMIT, copies and conversions. -/

namespace Sys2Proof.Machine

/-! ### Steps -/

/-- A property that every command keeps and that does not read the queue is kept by every step. -/
theorem keptByStep_of {Inv : State → Prop} (hp : ∀ s q, Inv s → Inv { s with pending := q })
    (hex : ∀ c s t, Inv s → exec c s = .next t → Inv t) : KeptByStep Inv := by
  intro s t hs h
  unfold step at h
  split at h
  · cases h; exact hs
  · exact hex _ _ _ (hp _ _ hs) h

/-- An event leaves the state alone, or it was due and had its effect. -/
theorem event_cases {due : Bool} {s t : State} {f : State → State} (h : event due s f = .next t) :
    t = s ∨ (s.held = false ∧ due = true ∧ t = (f s).settle) :=
  event_keeps (P := fun t => t = s ∨ (s.held = false ∧ due = true ∧ t = (f s).settle)) (.inl rfl) (fun a b => .inr ⟨a, b, rfl⟩) h

/-- A request leaves the state alone, or it was due and had its effect. -/
theorem onRequest_cases {p : Port} {r : Request} {s t : State} {f : State → State} (h : onRequest p r s f = .next t) :
    t = s ∨ (s.Due p r ∧ t = (f s).settle) :=
  onRequest_keeps (P := fun t => t = s ∨ (s.Due p r ∧ t = (f s).settle)) (.inl rfl) (fun a => .inr ⟨a, rfl⟩) h

/-! ### One slot -/

/-- An accepted write changes its own slot alone. -/
theorem State.slot_store (s : State) (i pt v q j) : (s.store i pt v q).slot j = if j = i then some (pt.written v q) else s.slot j := by
  rw [State.store_eq, ← State.slot_setSlot]; rfl

/-- A release changes its own slot alone. -/
theorem State.slot_releasePoint (s : State) p i j : (s.releasePoint p i).slot j = if j = i then (s.slot i).map Point.release else s.slot j := by
  unfold State.releasePoint
  split
  · rename_i h; split
    · subst_vars; rw [h]; rfl
    · rfl
  · rename_i pt h
    rw [State.slot_raiseAll]
    have e : ∀ w : State, (w.countDown p).slot j = w.slot j := fun _ => rfl
    rw [e, State.slot_setSlot, h]; rfl

/-- A definition or a removal changes its own slot alone. -/
theorem State.slot_replaceSlot (s : State) (i x j) : (s.replaceSlot i x).slot j = if j = i then x else s.slot j := by
  unfold State.replaceSlot; dsimp only; rw [State.raiseAll_eq]; rw [← State.slot_setSlot]; rfl

/-- A table reset at one slot. -/
theorem State.slot_tableReset (s : State) j : s.tableReset.slot j = (s.slot j).map Point.afterReset := by
  unfold State.tableReset; dsimp only; simp [State.slot, State.driveLines]

/-- The ageing event at one slot. -/
theorem State.slot_ageTable (s : State) j : s.ageTable.slot j = (s.slot j).map Point.aged := by
  unfold State.ageTable; dsimp only; rw [State.raiseAll_eq]
  simp [State.slot, State.driveLines]

/-- A tick at the claim arbiter at one slot. -/
theorem State.slot_arbiterTick (s : State) (j) : s.arbiterTick.slot j = (s.slot j).map Point.counted := by
  unfold State.arbiterTick; dsimp only; rw [State.raiseAll_eq]
  simp [State.slot]

/-- A port reset at one slot. -/
theorem State.slot_portReset (s : State) (p w j) : (s.portReset p w).slot j = (s.slot j).map fun pt => pt.afterPortReset p := by
  unfold State.portReset; dsimp only; rw [State.raiseAll_eq]
  simp [State.slot]

/-- A change made at each slot of a list, when making it twice is making it once. -/
theorem foldModify_slot (f : Point → Point) (hf : ∀ pt, f (f pt) = f pt) (l : List PointIx) (s : State) (j) :
    (l.foldl (fun s i => s.modifySlot i f) s).slot j = if j ∈ l then (s.slot j).map f else s.slot j := by
  induction l generalizing s with
  | nil => rfl
  | cons i l ih =>
    rw [List.foldl_cons, ih, State.slot_modifySlot]
    by_cases hji : j = i
    · subst hji
      simp only [List.mem_cons, true_or, if_true]
      by_cases hl : j ∈ l
      · simp only [hl, if_true, Option.map_map]; congr 1; funext pt; exact hf pt
      · simp only [hl, if_false]
    · simp [hji]

/-- A granted CLAIM at one slot. -/
theorem State.slot_grantClaim (s : State) c l j : (s.grantClaim c l).slot j = if j ∈ l then (s.slot j).map fun pt => { pt with holder := .port c } else s.slot j :=
  foldModify_slot (fun pt => { pt with holder := .port c }) (fun _ => rfl) l s j

/-- An internal claim granted at one slot. -/
theorem State.slot_grantInternal (s : State) h l j : (s.grantInternal h l).slot j = if j ∈ l then (s.slot j).map fun pt => { pt with holder := h, waiters := [] } else s.slot j :=
  foldModify_slot (fun pt => { pt with holder := h, waiters := [] }) (fun _ => rfl) l s j

/-- Restarting a lease does not change who holds. -/
theorem Holder.party_restart (h : Holder) : h.restart.party = h.party := by cases h <;> rfl

/-! ### Checks that have passed -/

/-- A commit whose check passes finds every one of its points held by the port (R63). -/
theorem State.commitBarrier_none {s : State} {p b} (h : s.commitBarrier p b = none) : ∀ e ∈ b, s.heldAt e.point (.port p) = true := by
  intro e he
  unfold State.commitBarrier at h
  rw [List.findSome?_eq_none_iff] at h
  obtain ⟨k, hk, rfl⟩ := List.mem_iff_getElem.1 he
  have := h (b[k], k) (by rw [List.mem_zipIdx_iff_getElem?]; simp [hk])
  simp only [Option.map_eq_none_iff] at this
  unfold State.commitCheck at this
  unfold State.heldAt
  split at this
  · cases this
  · rename_i pt hpt
    rw [hpt]
    split at this
    · cases this
    · rename_i hh; simpa using hh

/-- A claim that meets no other party finds each point free or its own (R38). -/
theorem State.firstOccupied_none {s : State} {p ixs} (h : s.firstOccupied p ixs = none) : ∀ i ∈ ixs, ∀ pt ∈ s.slot i, pt.holder.party = none ∨ pt.holder.party = some (.port p) := by
  intro i hi pt hpt
  unfold State.firstOccupied at h
  rw [List.findSome?_eq_none_iff] at h
  have := h i hi
  rw [Option.mem_def.1 hpt] at this
  simp only [Option.bind_some] at this
  cases hp : pt.holder.party with
  | none => exact .inl rfl
  | some w =>
    rw [hp] at this
    simp only [ite_eq_left_iff, reduceCtorEq, imp_false, Decidable.not_not] at this
    exact .inr (by rw [this])

/-- A claim past R37 finds each point defined, with the port in its rights. -/
theorem State.claimBarrier_none {s : State} {p ixs} (h : s.claimBarrier p ixs = none) : ∀ i ∈ ixs, ∃ pt, s.slot i = some pt ∧ pt.defn.rights.hasPort p = true := by
  intro i hi
  unfold State.claimBarrier at h
  rw [List.findSome?_eq_none_iff] at h
  have := h i hi
  split at this
  · cases this
  · rename_i pt hpt
    split at this
    · exact ⟨pt, hpt, ‹_›⟩
    · cases this

/-- An internal claim that is not refused finds each destination defined, INTERNAL in its rights, and free (R48). -/
theorem State.firstInternalRefusal_none {s : State} {l} (h : s.firstInternalRefusal l = none) : ∀ i ∈ l, ∃ pt, s.slot i = some pt ∧ pt.defn.rights.internal = true ∧ pt.holder.party = none := by
  intro i hi
  unfold State.firstInternalRefusal at h
  rw [List.findSome?_eq_none_iff] at h
  obtain ⟨k, hk, rfl⟩ := List.mem_iff_getElem.1 hi
  have := h (l[k], k) (by rw [List.mem_zipIdx_iff_getElem?]; simp [hk])
  simp only [Option.map_eq_none_iff] at this
  unfold State.internalRefusal at this
  split at this
  · cases this
  · rename_i pt hpt
    split at this
    · cases this
    · rename_i hr
      split at this
      · cases this
      · rename_i hn; exact ⟨pt, hpt, by simpa using hr, hn⟩

/-! ### Writes -/

/-- The parts of a write keep the property: a write that takes effect, raising causes, a release by the holding port, and a change
of a batch. -/
structure KeptByWrites (Inv : State → Prop) : Prop where
  store : ∀ s i pt x q, s.slot i = some pt → (q = .good ∨ q = .suspect) → Inv s → Inv (s.store i pt (pt.defn.fit x) q)
  raise : ∀ s rs, Inv s → Inv (s.raiseAll rs)
  release : ∀ s p i pt, s.slot i = some pt → pt.heldBy (.port p) = true → Inv s → Inv (s.releasePoint p i)
  batch : ∀ s p b, Inv s → Inv (s.setBatch p b)

variable {Inv : State → Prop}

/-- A written quality is GOOD or SUSPECT. -/
theorem writtenQuality_cases (b) : writtenQuality b = .good ∨ writtenQuality b = .suspect := by cases b <;> decide

/-- The quality of a copy is GOOD or SUSPECT. -/
theorem copyQuality_cases (q) : copyQuality q = .good ∨ copyQuality q = .suspect := by cases q <;> decide

/-- One WRITE entry keeps it. -/
theorem KeptByWrites.takeWrite (W : KeptByWrites Inv) {s : State} (p e) (hs : Inv s) : Inv (s.takeWrite p e).1 := by
  unfold State.takeWrite
  split
  · exact hs
  · rename_i pt hpt
    dsimp only
    split
    · exact hs
    · rename_i hh
      split
      · exact hs
      · dsimp only
        unfold State.portWrite
        dsimp only
        have h := W.raise _ (s.writeRaises e.point pt (pt.defn.fit (pt.defn.kind.num e.value)) (writtenQuality e.suspect) (!pt.defn.inRange (pt.defn.kind.num e.value))) (W.store s e.point pt (pt.defn.kind.num e.value) (writtenQuality e.suspect) hpt (writtenQuality_cases _) hs)
        split
        · refine W.release _ p e.point (pt.written (pt.defn.fit (pt.defn.kind.num e.value)) (writtenQuality e.suspect)) ?_ ?_ h
          · unfold State.storeAndRaise
            rw [State.slot_raiseAll, State.slot_store, if_pos rfl]
          · unfold Point.heldBy Point.written; dsimp only; rw [Holder.party_restart]; simpa [Point.heldBy] using hh
        · exact h

/-- The entries of a WRITE keep it. -/
theorem KeptByWrites.takeWrites (W : KeptByWrites Inv) {s : State} (p es) (hs : Inv s) : Inv (s.takeWrites p es).1 := by
  induction es generalizing s with
  | nil => exact hs
  | cons e es ih => exact ih (W.takeWrite p e hs)

/-- One entry of a commit keeps it. -/
theorem KeptByWrites.commitEntry (W : KeptByWrites Inv) {s : State} (e) (hs : Inv s) : Inv (s.commitEntry e) := by
  unfold State.commitEntry
  split
  · exact hs
  · exact W.raise _ _ (W.store _ _ _ _ _ ‹_› (.inl rfl) hs)

/-- An entry of a commit changes no holder. -/
theorem State.heldAt_commitEntry (s : State) (e : BatchEntry) (i w) : (s.commitEntry e).heldAt i w = s.heldAt i w := by
  unfold State.commitEntry
  split
  · rfl
  · rename_i pt hpt
    unfold State.heldAt State.storeAndRaise
    dsimp only
    rw [State.slot_raiseAll, State.slot_store]
    split
    · subst_vars; rw [hpt]; simp [Point.heldBy, Point.written, Holder.party_restart]
    · rfl

/-- A commit releases no point twice. -/
theorem State.commitReleases_nodup (s : State) b r : (s.commitReleases b r).Nodup := by
  unfold State.commitReleases; exact List.Pairwise.filter _ (List.nodup_finRange 512)

/-- The releases of a commit keep it. -/
theorem KeptByWrites.releases (W : KeptByWrites Inv) {s : State} (p) (l : List PointIx) (hn : l.Nodup) (hh : ∀ i ∈ l, s.heldAt i (.port p) = true) (hs : Inv s) :
    Inv (l.foldl (fun s i => s.releasePoint p i) s) := by
  induction l generalizing s with
  | nil => exact hs
  | cons i l ih =>
    rw [List.nodup_cons] at hn
    refine ih hn.2 ?_ ?_
    · intro j hj
      unfold State.heldAt
      rw [State.slot_releasePoint, if_neg (fun e => hn.1 (by rw [← e]; exact hj))]
      exact hh j (List.mem_cons_of_mem _ hj)
    · have := hh i (List.mem_cons_self ..)
      unfold State.heldAt at this
      cases hp : s.slot i with
      | none => simp [hp] at this
      | some pt => exact W.release s p i pt hp (by simpa [hp] using this) hs

/-- A commit whose check passes keeps it. -/
theorem KeptByWrites.commit (W : KeptByWrites Inv) {s : State} (p b r) (hb : s.commitBarrier p b = none) (hs : Inv s) : Inv (s.commit p b r) := by
  unfold State.commit
  dsimp only
  refine W.batch _ _ _ ?_
  have h2 : ∀ (b : Batch) (s : State), Inv s → Inv (b.foldl State.commitEntry s) ∧ ∀ i w, (b.foldl State.commitEntry s).heldAt i w = s.heldAt i w := by
    intro b
    induction b with
    | nil => exact fun s h => ⟨h, fun _ _ => rfl⟩
    | cons e b ih =>
      intro s h
      have := ih _ (W.commitEntry e h)
      exact ⟨this.1, fun i w => (this.2 i w).trans (State.heldAt_commitEntry s e i w)⟩
  obtain ⟨h3, h4⟩ := h2 b s hs
  refine W.releases p _ (State.commitReleases_nodup _ _ _) ?_ h3
  intro i hi
  rw [h4]
  unfold State.commitReleases at hi
  rw [List.mem_filter] at hi
  have := hi.2
  simp only [Bool.and_eq_true, List.any_eq_true, decide_eq_true_eq] at this
  obtain ⟨e, he, rfl⟩ := this.1
  exact State.commitBarrier_none hb e he

/-- A copy at the point table keeps it. -/
theorem KeptByWrites.applyCopy (W : KeptByWrites Inv) {s : State} (n o k) (hs : Inv s) : Inv (s.applyCopy (s.copyOutcome n o k)) := by
  unfold State.copyOutcome
  dsimp only
  split
  · exact hs
  · rename_i pt hpt
    split
    · exact hs
    · split
      · exact hs
      · split
        · exact hs
        · split
          · exact hs
          · exact W.store _ _ _ _ _ hpt (copyQuality_cases _) hs

/-- The write of a conversion result keeps it. -/
theorem KeptByWrites.scanWrite (W : KeptByWrites Inv) {s : State} (e raw) (hs : Inv s) : Inv (s.scanWrite e raw).1 := by
  unfold State.scanWrite State.scanTarget
  split
  · exact hs
  · rename_i pt hpt
    split at hpt
    · split at hpt
      · cases hpt; exact W.store _ _ _ _ _ ‹_› (writtenQuality_cases _) hs
      · cases hpt
    · cases hpt

end Sys2Proof.Machine
end

