-- ==== Sys2Proof/Laws/PerInstr.lean ====
section
/-! SUPPORT. Laws/PerInstr.lean: what holds of every command as syntax, one lemma per command. BodyLength: the request that a
well-formed command executes fits a frame (R194). -/

namespace Sys2Proof.Laws.BodyLength

open Sys2Proof.Machine

/-- The request of a well-formed command has a body of at most 59 bytes, so that its frame has at most 64 (R194). -/
def Statement (c : Instr) : Prop :=
  ∀ p r, c.request? = some (p, r) → r.wf = true → (requestBody r).length ≤ 59

/-- The bound holds of every request, so of every command. -/
theorem of_requestBody (c : Instr) : Statement c := fun _ r _ hw => length_requestBody r hw

theorem coldReset : Statement .coldReset := of_requestBody _
theorem selectFalling (port : Port) (sck : Level) : Statement (.selectFalling port sck) := of_requestBody _
theorem exchangeEnd (port : Port) (bytes : List Byte) (spareBits : Fin 8) : Statement (.exchangeEnd port bytes spareBits) := of_requestBody _
theorem read (port : Port) (points : List Half) : Statement (.read port points) := of_requestBody _
theorem write (port : Port) (entries : List WriteArgs) : Statement (.write port entries) := of_requestBody _
theorem define (port : Port) (args : DefineArgs) : Statement (.define port args) := of_requestBody _
theorem undefine (port : Port) (point : Half) : Statement (.undefine port point) := of_requestBody _
theorem tableReset (port : Port) : Statement (.tableReset port) := of_requestBody _
theorem claim (port : Port) (args : ClaimArgs) : Statement (.claim port args) := of_requestBody _
theorem release (port : Port) (args : ListArgs) : Statement (.release port args) := of_requestBody _
theorem renew (port : Port) (args : ListArgs) : Statement (.renew port args) := of_requestBody _
theorem withdraw (port : Port) (point : Half) : Statement (.withdraw port point) := of_requestBody _
theorem tick : Statement .tick := of_requestBody _
theorem tickAgeing : Statement .tickAgeing := of_requestBody _
theorem pointStale (point : Fin 512) : Statement (.pointStale point) := of_requestBody _
theorem claimArbiterTick : Statement .claimArbiterTick := of_requestBody _
theorem leaseLapse (point : Fin 512) : Statement (.leaseLapse point) := of_requestBody _
theorem waitExpiry (point : Fin 512) (port : Port) : Statement (.waitExpiry point port) := of_requestBody _
theorem timerTick (timer : Fin 4) : Statement (.timerTick timer) := of_requestBody _
theorem timerExpiry (timer : Fin 4) : Statement (.timerExpiry timer) := of_requestBody _
theorem lineEdge (line : Fin 8) (level : Level) : Statement (.lineEdge line level) := of_requestBody _
theorem batchOpen (port : Port) : Statement (.batchOpen port) := of_requestBody _
theorem batchPut (port : Port) (entries : List PutArgs) : Statement (.batchPut port entries) := of_requestBody _
theorem batchCommit (port : Port) (releaseAfter : Bool) : Statement (.batchCommit port releaseAfter) := of_requestBody _
theorem batchDiscard (port : Port) : Statement (.batchDiscard port) := of_requestBody _
theorem subscribe (port : Port) (args : SubscribeArgs) : Statement (.subscribe port args) := of_requestBody _
theorem unsubscribe (port : Port) (point : Half) : Statement (.unsubscribe port point) := of_requestBody _
theorem fetch (port : Port) (count : Byte) : Statement (.fetch port count) := of_requestBody _
theorem orderDefine (port : Port) (order : Byte) (args : OrderArgs) : Statement (.orderDefine port order args) := of_requestBody _
theorem orderArm (port : Port) (order : Byte) : Statement (.orderArm port order) := of_requestBody _
theorem orderDisarm (port : Port) (order : Byte) : Statement (.orderDisarm port order) := of_requestBody _
theorem orderFire (port : Port) (order : Byte) : Statement (.orderFire port order) := of_requestBody _
theorem orderQuery (port : Port) (order : Byte) : Statement (.orderQuery port order) := of_requestBody _
theorem orderClear (port : Port) (order : Byte) : Statement (.orderClear port order) := of_requestBody _
theorem orderCopy : Statement .orderCopy := of_requestBody _
theorem scanDefinePart (port : Port) (args : ScanPartArgs) : Statement (.scanDefinePart port args) := of_requestBody _
theorem scanDefine (port : Port) (args : ScanDefineArgs) : Statement (.scanDefine port args) := of_requestBody _
theorem scanArm (port : Port) : Statement (.scanArm port) := of_requestBody _
theorem scanStart (port : Port) : Statement (.scanStart port) := of_requestBody _
theorem scanStop (port : Port) : Statement (.scanStop port) := of_requestBody _
theorem scanDisarm (port : Port) : Statement (.scanDisarm port) := of_requestBody _
theorem scanQuery (port : Port) : Statement (.scanQuery port) := of_requestBody _
theorem conversionCompletion (raw : BitVec 12) : Statement (.conversionCompletion raw) := of_requestBody _
theorem tickSet (port : Port) (period : Half) (runState : Byte) : Statement (.tickSet port period runState) := of_requestBody _
theorem timerSet (port : Port) (timer : Byte) (period : Half) (mode : Byte) : Statement (.timerSet port timer period mode) := of_requestBody _
theorem timerStop (port : Port) (timer : Byte) : Statement (.timerStop port timer) := of_requestBody _
theorem lineSet (port : Port) (line : Byte) (edge : Byte) : Statement (.lineSet port line edge) := of_requestBody _
theorem outputBind (port : Port) (args : BindArgs) : Statement (.outputBind port args) := of_requestBody _
theorem portReset (port : Port) : Statement (.portReset port) := of_requestBody _
theorem forcePortReset (port : Port) (target : Byte) : Statement (.forcePortReset port target) := of_requestBody _
theorem configGrant (port : Port) (target : Byte) : Statement (.configGrant port target) := of_requestBody _
theorem configRevoke (port : Port) (target : Byte) : Statement (.configRevoke port target) := of_requestBody _
theorem attnSet (port : Port) (response : Byte) (notice : Byte) : Statement (.attnSet port response notice) := of_requestBody _
theorem status (port : Port) : Statement (.status port) := of_requestBody _
theorem coldResetEnd (pins : BitVec 8) : Statement (.coldResetEnd pins) := of_requestBody _

end Sys2Proof.Laws.BodyLength
end

