-- ==== Sys2Proof/Tests/Slice0.lean ====
section
/-! SUPPORT. Tests/Slice0.lean: the smoke of WellFormed, the frames of the spec, one or two steps of every command, and concrete
states that meet the hypotheses of the statements. -/

namespace Sys2Proof.Machine.Test

set_option Elab.async false

open Sys2Proof Sys2Proof.Machine

/-- Rights of every party. -/
def anyone : Rights := ⟨.all true, true⟩

/-- A point of this kind and these limits, with every right. -/
def defOf (kind : Kind) (low high : Word) (action : LimitAction) (maxAge : Nat) : PointDef :=
  { kind, default := low, low, high, limitAction := action, maxAge, rights := anyone }

/-- A defined point with this holder. -/
def pointOf (d : PointDef) (value : Word) (holder : Holder) (waiters : List Wait) : Point :=
  { defn := d, value, quality := .good, seq := 1, age := 0, holder, waiters }

/-- A wait of a port without a lease. -/
def waitOf (p : Port) (remaining : Nat) : Wait := { port := p, lease := 5, mode := .hold, remaining }

/-- Point 0 of the demonstration table: U32 0 to 100 CLAMP, held by A on a lease that lapses at the next tick, B waiting. -/
def p0 : Point :=
  { pointOf (defOf .u32 0 100 .clamp 3) 7 (.port ⟨.a, some ⟨2, 1⟩, .hold⟩) [waitOf .b 4] with age := 2 }
/-- Point 1: S32 -100 to 100 REJECT, held by A until one write. -/
def p1 : Point := pointOf (defOf .s32 (-100) 100 .reject 0) 5 (.port ⟨.a, none, .writeOnce⟩) []
/-- Point 2: free and UNSET. -/
def p2 : Point := { pointOf (defOf .u32 0 100 .clamp 0) 0 .none [] with quality := .unset, seq := 0 }
/-- Point 3: free, for port B alone. -/
def p3 : Point := pointOf { defOf .u32 0 100 .clamp 0 with rights := ⟨⟨false, true, false, false⟩, false⟩ } 0 .none []
/-- Point 4: held by order 0, with three waiters. -/
def p4 : Point := pointOf (defOf .s32 (-100) 100 .reject 0) 0 (.order 0) [waitOf .b 9, waitOf .c 9, waitOf .d 9]
/-- Point 5: held by the scanner. -/
def p5 : Point := pointOf (defOf .s32 (-100) 1000 .reject 0) 0 .scanner []
/-- Point 6: held by B without a lease, with C's wait at its last tick. -/
def p6 : Point := pointOf (defOf .u32 0 100 .clamp 0) 0 (.port ⟨.b, none, .hold⟩) [waitOf .c 1]
/-- Point 511: BOOL CLAMP, held by A. -/
def p511 : Point := pointOf (defOf .bool 0 1 .clamp 0) 1 (.port ⟨.a, some ⟨65535, 1⟩, .hold⟩) []

/-- Order 0: ARMED, one run of one copy from point 0 to point 4 at every write of point 0, pulsing chain 7 at its end. -/
def o0 : Order :=
  { defn := { owner := .b, trigger := .point 0, source := 0, runLength := 1, dest := 4, step := .fixed, transform := .copy,
              runs := 1, chain := some 7 }
    phase := .armed, remaining := 1, pending := 0, missed := 0, runsDone := 0, faults := 0, base := 0 }
/-- Order 31: DISARMED, two copies from points 0 and 1 to points 1 and 2. -/
def o31 : Order :=
  { o0 with defn := { o0.defn with trigger := .request, runLength := 2, dest := 1, runs := 0, chain := none }, phase := .disarmed
            remaining := 0 }

/-- The scanner: ARMED, one entry into point 5. -/
def sc0 : Scanner :=
  { owner := .a, entries := [⟨0, 5, 256, 0, true⟩], mode := .single, trigger := .chain 7, phase := .armed, current := 0,
    pendingPass := false, passCount := 0, missed := 0 }

/-- A running part with a small table, two orders, a scanner, and a tick due at every consumer. -/
@[irreducible] def demo : State :=
  let s : State := { State.reset with
    held := false
    counts := ⟨3, 3, 2, 1⟩
    batches := ⟨some [⟨0, 50⟩, ⟨1, 3⟩], none, none, none⟩
    scanner := some sc0
    tickGen := ⟨10, true, some 10, 1, 1⟩ }
  let s := [(0, p0), (1, p1), (2, p2), (3, p3), (4, p4), (5, p5), (6, p6), (511, p511)].foldl
    (fun s (i, pt) => s.setSlot i (some pt)) s
  let u := s.notices.get .b
  let s := s.setNotices .b { u with subs := u.subs.set 0 (some ⟨.change, 7⟩) }
  let s := (s.setOrder 0 (some o0)).setOrder 31 (some o31)
  let s := (s.setOutput 0 ⟨some 0, .low, false, .high⟩).setOutput 7 ⟨some 511, .high, true, .low⟩
  (s.setTimer 3 ⟨2, .periodic, true, 1, 1⟩).setLine 7 ⟨.both, .low⟩

/-- The state with one ACCEPTED request in a port's window. -/
def ask (s : State) (p : Port) (r : Request) : State :=
  s.setPort p { s.ports.get p with window := [.accepted 1 r] }

/-- The next state of a command. -/
def after (c : Instr) (s : State) : State :=
  match exec c s with
  | .next t => t
  | _ => s

/-- The state after a request of port A. -/
def asked (c : Instr) (s : State := demo) : State :=
  match c.request? with
  | some (p, r) => after c (ask s p r)
  | none => after c s

/-- The answer in a port's window. -/
def answerOf (s : State) (p : Port) : Option (Status × Body) :=
  match (s.ports.get p).window with
  | .answered _ st b :: _ => some (st, b)
  | _ => none


/-! ### Well-formedness refuses what no frame can carry (Table 10.3-2) -/

theorem test_wf_read : (Instr.read .a []).wf = false ∧ (Instr.read .a (List.replicate 8 0)).wf = false ∧
    (Instr.read .a (List.replicate 7 0)).wf = true := by decide
theorem test_wf_write : (Instr.write .a []).wf = false ∧ (Instr.write .a (List.replicate 9 ⟨0, 0, false⟩)).wf = false ∧
    (Instr.write .a (List.replicate 8 ⟨0, 0, false⟩)).wf = true := by decide
theorem test_wf_claim : (Instr.claim .a ⟨0, 0, false, 0, []⟩).wf = false ∧
    (Instr.claim .a ⟨0, 0, false, 0, List.replicate 17 0⟩).wf = false ∧
    (Instr.claim .a ⟨0, 0, false, 0, List.replicate 16 0⟩).wf = true := by decide
theorem test_wf_release : (Instr.release .a ⟨0, List.replicate 17 0⟩).wf = false ∧ (Instr.release .a ⟨1, []⟩).wf = true := by decide
theorem test_wf_renew : (Instr.renew .a ⟨0, List.replicate 17 0⟩).wf = false ∧ (Instr.renew .a ⟨1, []⟩).wf = true := by decide
theorem test_wf_batchPut : (Instr.batchPut .a []).wf = false ∧ (Instr.batchPut .a (List.replicate 9 ⟨0, 0⟩)).wf = false := by decide
theorem test_wf_scanDefinePart : (Instr.scanDefinePart .a ⟨0, ⟨0, 0⟩, 0, true, []⟩).wf = false ∧
    (Instr.scanDefinePart .a ⟨0, ⟨0, 0⟩, 0, true, List.replicate 6 ⟨0, 0, 0, 0, 0⟩⟩).wf = false := by decide
theorem test_wf_scanDefine : (Instr.scanDefine .a ⟨0, ⟨0, 0⟩, []⟩).wf = false ∧
    (Instr.scanDefine .a ⟨0, ⟨0, 0⟩, List.replicate 17 ⟨0, 0, 0, 0, 0⟩⟩).wf = false := by decide

/-! ### Frames -/

/-- The request frame of Table 10.7-1 up to its CRC. -/
def frame107 : List Byte :=
  [0x13, 0x5A, 0x02, 0x00, 0x28, 0xFF, 0xFF, 0xFF, 0xEC, 0x00, 0x00, 0x28, 0xFF, 0xFF, 0xFF, 0xE2, 0x00]
/-- The request that the frame carries. -/
def request107 : Request := .write [⟨40, 0xFFFFFFEC, false⟩, ⟨40, 0xFFFFFFE2, false⟩]

theorem test_crc_check_value : crc [0x31, 0x32, 0x33, 0x34, 0x35, 0x36, 0x37, 0x38, 0x39] = 0x29B1 := by decide +kernel
theorem test_frame_of_10_7 : requestFrame 0x5A request107 = frame107 ++ bytes2 (crc frame107) := by decide +kernel
theorem test_frame_of_10_7_is_read :
    demo.examine .c (padded (frame107 ++ bytes2 (crc frame107))) = .accepted 0x5A request107 := by decide +kernel
theorem test_frame_with_a_broken_crc :
    demo.examine .c (padded (frame107 ++ bytes2 (crc frame107 + 1))) = .answered 0x5A .badCheck .empty := by decide +kernel
theorem test_response_of_10_7 :
    bodyBytes (.write [⟨.ok, 0xFFFFFFEC, 3⟩, ⟨.notHolder, 0xFFFFFFEC, 3⟩]) =
      [0x00, 0xFF, 0xFF, 0xFF, 0xEC, 0x00, 0x03, 0x23, 0xFF, 0xFF, 0xFF, 0xEC, 0x00, 0x03] := by decide

/-! ### One or two steps of every command -/

theorem test_coldReset : (after .coldReset demo).slot 0 = none ∧ (after .coldReset demo).held = true := by decide +kernel
theorem test_coldResetEnd : (after (.coldResetEnd 0x80) State.reset).lines[7].settled = .high ∧
    (after (.coldResetEnd 0x80) State.reset).tickGen.interval = some 10 := by decide +kernel
theorem test_selectFalling :
    ((after (.selectFalling .a .high) demo).ports.get .a).exchange.map (fun x => (x.mode, x.frame.take 6)) =
      some (.mode3, [0x08, 0x00, 0x03, 0x00, 0x60, 0x00]) := by decide +kernel
theorem test_exchangeEnd :
    (((after (.exchangeEnd .c (padded (requestFrame 0x5A request107)) 0) (after (.selectFalling .c .low) demo)).ports.get
      .c).window) = [.accepted 0x5A request107] := by decide +kernel
theorem test_exchangeEnd_cut_short :
    ((after (.exchangeEnd .c [] 7) (after (.selectFalling .c .low) demo)).ports.get .c).droppedFlag = true := by decide +kernel
theorem test_read : answerOf (asked (.read .a [0, 9])) .a =
    some (.ok, .read [⟨.ok, 7, 1, .good, some (.port .a)⟩, ⟨.notDefined, 0, 0, .unset, none⟩]) := by decide +kernel
theorem test_write_clamps_and_rejects : answerOf (asked (.write .a [⟨0, 101, false⟩, ⟨1, 101, false⟩])) .a =
    some (.ok, .write [⟨.okClamped, 100, 2⟩, ⟨.outOfRange, 5, 1⟩]) := by decide +kernel
theorem test_write_ends_a_write_once_claim : answerOf (asked (.write .a [⟨1, -100, true⟩, ⟨1, 0, false⟩])) .a =
    some (.ok, .write [⟨.ok, -100, 2⟩, ⟨.notHolder, -100, 2⟩]) := by decide +kernel
theorem test_define : ((asked (.define .a ⟨2, 1, 3, 1, 5, 1, 9, 0x1F⟩)).slot 2).map Point.value = some 3 := by decide +kernel
theorem test_define_held : answerOf (asked (.define .a ⟨0, 1, 3, 1, 5, 1, 9, 0x1F⟩)) .a = some (.busy, .empty) := by decide +kernel
theorem test_undefine : (asked (.undefine .a 2)).slot 2 = none := by decide +kernel
theorem test_tableReset : ((asked (.tableReset .a)).slot 511).map (fun pt => (pt.value, pt.quality, pt.holder)) =
    some (0, .unset, .none) := by decide +kernel
theorem test_tableReset_epoch : (asked (.tableReset .a)).epoch = 1 := by decide +kernel
theorem test_claim : ((asked (.claim .a ⟨4, 1, false, 0, [2]⟩)).slot 2).map Point.holder =
    some (.port ⟨.a, some ⟨4, 4⟩, .writeOnce⟩) := by decide +kernel
theorem test_claim_waits : answerOf (asked (.claim .a ⟨4, 0, true, 3, [6]⟩)) .a =
    some (.waiting, .claim 6 (some (.port .b)) 2) := by decide +kernel
theorem test_release : ((asked (.release .a ⟨0, [0]⟩)).slot 0).map Point.holder =
    some (.port ⟨.b, some ⟨5, 5⟩, .hold⟩) := by decide +kernel
theorem test_release_all : answerOf (asked (.release .a ⟨1, []⟩)) .a = some (.ok, .all 3) := by decide +kernel
theorem test_renew : ((asked (.renew .a ⟨0, [0]⟩)).slot 0).map Point.holder =
    some (.port ⟨.a, some ⟨2, 2⟩, .hold⟩) := by decide +kernel
theorem test_withdraw : ((asked (.withdraw .c 6)).slot 6).map Point.waiting = some [] := by decide +kernel
theorem test_withdraw_counts : (asked (.withdraw .c 6)).counts.c = 1 := by decide +kernel
theorem test_tick : (after .tick demo).tickGen = ⟨10, true, some 10, 2, 2⟩ := by decide +kernel
theorem test_tickAgeing : ((after .tickAgeing demo).slot 0).map (fun pt => (pt.age, pt.quality)) = some (3, .stale) := by decide +kernel
theorem test_tickAgeing_line : (after .tickAgeing demo).outputs[0].level = .low := by decide +kernel
theorem test_pointStale : ((after (.pointStale 0) demo).slot 0).map Point.quality = some .stale := by decide +kernel
theorem test_claimArbiterTick : ((after .claimArbiterTick demo).slot 0).map Point.holder =
    some (.port ⟨.b, some ⟨5, 5⟩, .hold⟩) := by decide +kernel
theorem test_claimArbiterTick_counts : (after .claimArbiterTick demo).counts = ⟨1, 3, 1, 1⟩ := by decide +kernel
theorem test_leaseLapse : ((after (.leaseLapse 511) demo).slot 511).map Point.holder = some .none := by decide +kernel
theorem test_waitExpiry : ((after (.waitExpiry 6 .c) demo).slot 6).map Point.waiting = some [] := by decide +kernel
theorem test_timerTick : (after (.timerTick 3) demo).timers[3] = ⟨2, .periodic, true, 2, 0⟩ := by decide +kernel
theorem test_timerExpiry : (after (.timerExpiry 3) demo).timers[3] = ⟨2, .periodic, true, 2, 0⟩ := by decide +kernel
theorem test_lineEdge : (after (.lineEdge 7 .high) demo).lines[7] = ⟨.both, .high⟩ := by decide +kernel
theorem test_batchOpen : answerOf (asked (.batchOpen .a)) .a = some (.state, .entries 2) ∧
    (asked (.batchOpen .b)).batches.b = some [] := by decide +kernel
theorem test_batchPut : (asked (.batchPut .a [⟨511, 1⟩, ⟨0, 9⟩])).batches.a = some [⟨0, 9⟩, ⟨1, 3⟩, ⟨511, 1⟩] := by decide +kernel
theorem test_batchCommit : answerOf (asked (.batchCommit .a false)) .a = some (.ok, .committed 2 0 1) := by decide +kernel
theorem test_batchCommit_writes : ((asked (.batchCommit .a false)).slot 1).map (fun pt => (pt.value, pt.holder)) =
    some (3, .none) := by decide +kernel
theorem test_batchDiscard : (asked (.batchDiscard .a)).batches.a = none := by decide +kernel
theorem test_subscribe : (asked (.subscribe .a ⟨511, 2, 4⟩)).sub .a 511 = some ⟨.deadband none, 1⟩ := by decide +kernel
theorem test_unsubscribe : (asked (.unsubscribe .b 0)).sub .b 0 = none := by decide +kernel
theorem test_fetch : answerOf (asked (.fetch .b 4) (demo.raise .b (.point 0) .quality)) .b =
    some (.ok, .notices [⟨.point 0, CauseSet.add CauseSet.empty .quality, .point 7 .good 1, 0⟩]) := by decide +kernel
theorem test_orderDefine : ((asked (.orderDefine .a 31 ⟨⟨0, 0⟩, 500, 12, 480, 1, 0, 2, 0, 0, 0, 3, 0xFF⟩)).order 31).map
    (fun o => (o.phase, o.remaining, o.base)) = some (.disarmed, 3, 500) := by decide +kernel
theorem test_orderDefine_past_the_table :
    answerOf (asked (.orderDefine .a 31 ⟨⟨0, 0⟩, 501, 12, 480, 1, 0, 2, 0, 0, 0, 3, 0xFF⟩)) .a = some (.badArg, .empty) := by
  decide +kernel
theorem test_orderArm : answerOf (asked (.orderArm .a 31)) .a = some (.held, .orderArm 1 (some (.port .a))) := by decide +kernel
theorem test_orderDisarm : ((asked (.orderDisarm .a 0)).slot 4).map Point.holder =
    some (.port ⟨.b, some ⟨5, 5⟩, .hold⟩) := by decide +kernel
theorem test_orderFire : answerOf (asked (.orderFire .a 0)) .a = some (.ok, .orderFire 0 0 .running) := by decide +kernel
theorem test_orderQuery : answerOf (asked (.orderQuery .a 1)) .a = some (.ok, .order 1 none 0 .none) := by decide +kernel
theorem test_orderClear : (asked (.orderClear .a 31)).order 31 = none := by decide +kernel
theorem test_orderCopy : ((after .orderCopy (asked (.orderFire .a 0))).slot 4).map (fun pt => (pt.value, pt.holder)) =
    some (7, .port ⟨.b, some ⟨5, 5⟩, .hold⟩) := by decide +kernel
theorem test_orderCopy_retires : ((after .orderCopy (asked (.orderFire .a 0))).order 0).map Order.phase =
    some .retired := by decide +kernel
theorem test_scanDefinePart : ((asked (.scanDefinePart .a ⟨0, ⟨0, 0⟩, 0, true, [⟨7, 511, 1, 2, 1⟩]⟩)).presented .a) =
    some (.scanDefine ⟨0, ⟨0, 0⟩, [⟨7, 511, 1, 2, 1⟩]⟩) := by decide +kernel
theorem test_scanDefine : (asked (.scanDefine .a ⟨1, ⟨0, 0⟩, [⟨7, 511, 1, 2, 1⟩]⟩) { demo with scanner := none }).scanner.map
    Scanner.entries = some [⟨7, 511, 1, 2, true⟩] := by decide +kernel
theorem test_scanArm : answerOf (asked (.scanArm .a) { demo with scanner := some { sc0 with phase := .defined } }) .a =
    some (.held, .scanArm 5 0 (some .scanner)) := by decide +kernel
theorem test_scanStart : answerOf (asked (.scanStart .a)) .a = some (.ok, .scanStart .converting false 0) := by decide +kernel
theorem test_scanStop : (asked (.scanStop .a) (asked (.scanStart .a))).scanner.map Scanner.phase = some .armed := by decide +kernel
theorem test_scanDisarm : ((asked (.scanDisarm .a)).slot 5).map Point.holder = some .none := by decide +kernel
/-- Log 19: a trigger counted as missed stays counted at a SCAN_DISARM. -/
theorem test_scanDisarm_keeps_missed :
    (asked (.scanDisarm .a) { demo with scanner := some ({ sc0 with phase := .converting, pendingPass := true } : Scanner).accept }).scanner.map
      Scanner.missed = some 1 := by decide +kernel
theorem test_scanQuery : answerOf (asked (.scanQuery .d)) .d = some (.ok, .scanner (some sc0)) := by decide +kernel
theorem test_conversionCompletion : ((after (.conversionCompletion 4095) (asked (.scanStart .a))).slot 5).map
    (fun pt => (pt.value, pt.quality)) = some (1000, .suspect) := by decide +kernel
theorem test_conversionCompletion_ends_the_pass : (after (.conversionCompletion 4095) (asked (.scanStart .a))).scanner.map
    (fun sc => (sc.phase, sc.passCount)) = some (.armed, 1) := by decide +kernel
theorem test_tickSet : (asked (.tickSet .a 10000 0)).tickGen = ⟨10000, false, none, 1, 1⟩ := by decide +kernel
theorem test_timerSet : (asked (.timerSet .a 0 65535 1)).timers[0] = ⟨65535, .periodic, true, 65535, 0⟩ := by decide +kernel
theorem test_timerStop : answerOf (asked (.timerStop .a 3)) .a = some (.ok, .timerStop true 1) := by decide +kernel
theorem test_lineSet : answerOf (asked (.lineSet .a 7 0)) .a = some (.ok, .line .both .low) := by decide +kernel
theorem test_outputBind : answerOf (asked (.outputBind .a ⟨7, 0xFFFF, 0, true⟩)) .a =
    some (.ok, .output (some 511) .high true .low) := by decide +kernel
theorem test_portReset : ((asked (.portReset .a)).slot 0).map Point.holder =
    some (.port ⟨.b, some ⟨5, 5⟩, .hold⟩) := by decide +kernel
theorem test_portReset_flag : (((asked (.portReset .a)).ports.get .a).resetFlag, (asked (.portReset .a)).counts.a) =
    (true, 0) := by decide +kernel
theorem test_forcePortReset : ((asked (.forcePortReset .a 3)).slot 6).map Point.waiting = some [] := by decide +kernel
theorem test_configGrant : (asked (.configGrant .a 4)).config = ⟨true, false, false, true⟩ := by decide +kernel
theorem test_configRevoke : answerOf (asked (.configRevoke .a 1)) .a = some (.state, .empty) := by decide +kernel
theorem test_attnSet : ((asked (.attnSet .a 0 1)).ports.get .a).attn = .high := by decide +kernel
theorem test_status : answerOf (asked (.status .b)) .b =
    some (.ok, .status .b ⟨true, false, false, false⟩ true true .high 0) := by decide +kernel

/-! ### Witnesses: concrete states and operands that meet the hypotheses of the statements

One theorem per statement, a clause each. `ask` makes a request due. -/

theorem due_ask (s : State) (p : Port) (r : Request) (h : s.held = false) : (ask s p r).Due p r := by
  cases p <;> exact ⟨h, rfl⟩

theorem demo_running : demo.held = false := by decide +kernel
theorem demo_idle : demo.executor = none := by decide +kernel
theorem demo_scanner : demo.scanner = some sc0 := by decide +kernel

/-- A request of port A is due in the demonstration table. -/
theorem due (r : Request) : (ask demo .a r).Due .a r := due_ask demo .a r demo_running

/-- An index field that names no point. -/
theorem beyond {fs : List Half} (h : 512 ∈ fs) : ∃ f ∈ fs, 512 ≤ f.toNat := ⟨512, h, by decide +kernel⟩

theorem slot0 : demo.slot 0 = some p0 := by decide +kernel
theorem slot1 : demo.slot 1 = some p1 := by decide +kernel
theorem slot2 : demo.slot 2 = some p2 := by decide +kernel
theorem slot3 : demo.slot 3 = some p3 := by decide +kernel
theorem slot4 : demo.slot 4 = some p4 := by decide +kernel
theorem slot5 : demo.slot 5 = some p5 := by decide +kernel
theorem slot6 : demo.slot 6 = some p6 := by decide +kernel
theorem slot511 : demo.slot 511 = some p511 := by decide +kernel
theorem slot9 : demo.slot 9 = none := by decide +kernel

theorem witness_StepRunsFrontCommand :
    ({ demo with pending := [.tick] } : State).pending = .tick :: [] ∧ demo.pending = [] := ⟨rfl, by decide +kernel⟩

theorem witness_CommandNotDueIsPassedOver :
    (Instr.status .a).request? = some (Port.a, Request.status) ∧ ¬ demo.Due .a .status ∧ State.reset.held = true ∧ demo.held = false ∧
      ((after (.selectFalling .a .low) demo).ports.get .a).exchange.isSome ∧ (demo.ports.get .a).exchange = none ∧
      ({ demo with tickGen := { demo.tickGen with running := false } } : State).tickGen.running = false ∧
      demo.executor = none ∧ demo.converting = false :=
  ⟨rfl, fun h => (by decide +kernel : demo.presented .a ≠ some .status) h.2, rfl, demo_running, by decide +kernel, by decide +kernel,
    rfl, demo_idle, by decide +kernel⟩

/-- Nothing is due by this: no tick at a consumer, a stopped timer, points that neither go stale nor lapse nor expire. -/
theorem witness_CommandNotDueIsPassedOver_ticks :
    let s : State := { demo with tickGen := { demo.tickGen with dueTable := 0, dueArbiter := 0 } }
    s.tickGen.running = true ∧ s.tickGen.dueTable = 0 ∧ s.tickGen.dueArbiter = 0 ∧ demo.timers[0].running = false ∧
      (demo.setTimer 3 ⟨2, .periodic, true, 1, 0⟩).timers[3].running = true ∧
      (demo.setTimer 3 ⟨2, .periodic, true, 1, 0⟩).timers[3].due = 0 ∧
      (demo.setTimer 3 ⟨2, .periodic, true, 2, 1⟩).timerDue 3 = true ∧
      1 < (demo.setTimer 3 ⟨2, .periodic, true, 2, 1⟩).timers[3].remaining :=
  ⟨by decide +kernel, rfl, rfl, by decide +kernel, by decide +kernel, by decide +kernel, by decide +kernel, by decide +kernel⟩

theorem witness_CommandNotDueIsPassedOver_outcomes :
    demo.goesStale 1 = false ∧ demo.goesStale 9 = false ∧ (∀ pt ∈ demo.slot 6, pt.lapsing = none) ∧
      (∀ pt ∈ demo.slot 9, pt.lapsing = none) ∧ (∀ pt ∈ demo.slot 6, Port.b ∉ pt.expiring) ∧
      ∀ pt ∈ demo.slot 0, Port.b ∉ pt.expiring :=
  ⟨by decide +kernel, by decide +kernel, by decide +kernel, by decide +kernel, by decide +kernel, by decide +kernel⟩

theorem witness_ColdResetAndItsEnd : State.reset.held = true := rfl

theorem witness_ReadReportsEachPoint :
    (ask demo .a (.read [0, 511])).Due .a (.read [0, 511]) ∧ Names [0, 511] [0, 511] ∧
      (∃ f ∈ ([511, 512] : List Half), 512 ≤ f.toNat) ∧ demo.slot 511 = some p511 ∧ demo.slot 9 = none :=
  ⟨due _, rfl, beyond (by simp), slot511, slot9⟩

theorem witness_WriteTakesEntriesInOrder :
    (ask demo .a (.write [⟨511, 2, true⟩])).Due .a (.write [⟨511, 2, true⟩]) ∧
      [(⟨511, 2, true⟩ : WriteArgs)].map (fun a => (a.point.toNat, a.value, a.suspect)) =
        [(⟨511, 2, true⟩ : WriteEntry)].map (fun e => (e.point.val, e.value, e.suspect)) ∧
      (∃ a ∈ [(⟨512, 0, false⟩ : WriteArgs)], 512 ≤ a.point.toNat) ∧ demo.slot 9 = none ∧ demo.slot 6 = some p6 ∧
      p6.heldBy (.port .a) = false ∧ p1.heldBy (.port .a) = true ∧ p1.defn.rejects (p1.defn.kind.num 101) = true ∧
      p1.defn.rejects (p1.defn.kind.num 100) = false :=
  ⟨due _, by decide +kernel, by decide +kernel, slot9, slot6, by decide +kernel, by decide +kernel, by decide +kernel, by decide +kernel⟩

theorem witness_LimitsAreAppliedByKind :
    p1.defn.inRange (p1.defn.kind.num (-100)) = true ∧ (-101 : Int) < p1.defn.lowNum ∧ p1.defn.lowNum ≤ p1.defn.highNum ∧
      p1.defn.highNum < 101 ∧ p1.defn.inRange 100 = true := by decide +kernel

theorem witness_AcceptedWriteStores :
    demo.slot 1 = some p1 ∧ p1.heldBy (.port .a) = true ∧ p1.defn.rejects (p1.defn.kind.num (-100)) = false ∧
      p1.holder.isOnce = true ∧ demo.slot 0 = some p0 ∧ p0.heldBy (.port .a) = true ∧
      p0.defn.rejects (p0.defn.kind.num 101) = false ∧ p0.holder.isOnce = false :=
  ⟨slot1, by decide +kernel, by decide +kernel, by decide +kernel, slot0, by decide +kernel, by decide +kernel, by decide +kernel⟩

theorem witness_WriteReachesItsNeighbours :
    demo.slot 0 = some p0 ∧ demo.outputs[0].point = some 0 ∧ (demo.sub .b 0).isSome ∧ o0.hears (.point 0) = true :=
  ⟨slot0, by decide +kernel, by decide +kernel, by decide +kernel⟩

theorem witness_SubscriptionConditions :
    (⟨.write, 7⟩ : Sub).condition = .write ∧ (⟨.change, 7⟩ : Sub).condition = .change ∧
      (⟨.deadband none, 7⟩ : Sub).condition = .deadband none ∧ (⟨.deadband (some 1), 7⟩ : Sub).condition = .deadband (some 1) := by
  decide

/-- DEFINE of point 2 and of point 0 as S32 1 to 5. -/
def define2 : DefineArgs := ⟨2, 1, 3, 1, 5, 1, 9, 0x1F⟩
/-- The definition that both give. -/
def defined2 : PointDef := ⟨.s32, 3, 1, 5, .clamp, 9, anyone⟩

theorem witness_DefineAndUndefine :
    (ask demo .a (.define define2)).Due .a (.define define2) ∧ pointDef? define2 = some defined2 ∧
      pointDef? { define2 with default := 6 } = none ∧ 512 ≤ ({ define2 with point := 512 } : DefineArgs).point.toNat ∧
      demo.slotHeld 0 = true ∧ demo.slotHeld 2 = false ∧ (ask demo .a (.undefine 9)).Due .a (.undefine 9) ∧
      (9#16).toNat = (9 : PointIx).val ∧ demo.slot 9 = none ∧ demo.slot 2 = some p2 :=
  ⟨due _, by decide +kernel, by decide +kernel, by decide +kernel, by decide +kernel, by decide +kernel, due _, by decide +kernel, slot9, slot2⟩

theorem witness_TableResetClearsLiveState : (ask demo .a .tableReset).Due .a .tableReset := due _

/-- A CLAIM of these points, without a wait. -/
def claimOf (points : List Half) : ClaimArgs := ⟨4, 0, false, 0, points⟩
/-- A CLAIM of these points, waiting for one tick. -/
def waitFor (points : List Half) : ClaimArgs := ⟨4, 0, true, 1, points⟩

theorem claimable (p : Port) (i : PointIx) (pt : Point) (h : demo.slot i = some pt) (hr : pt.defn.rights.hasPort p = true) :
    demo.Claimable p i := ⟨pt, h, hr⟩

theorem free2 : demo.Claimable .a 2 ∧ demo.Available .a 2 := ⟨⟨p2, slot2, rfl⟩, p2, slot2, .inl rfl⟩
theorem own0 : demo.Claimable .a 0 ∧ demo.Available .a 0 := ⟨⟨p0, slot0, rfl⟩, p0, slot0, .inr rfl⟩
theorem taken4 : demo.Claimable .a 4 := ⟨p4, slot4, rfl⟩
theorem taken6 : demo.Claimable .a 6 := ⟨p6, slot6, rfl⟩
theorem not_available6 : ¬ demo.Available .a 6 := by
  rintro ⟨pt, h, hp⟩
  rw [slot6] at h
  cases h
  revert hp
  decide
theorem both (i : PointIx) (h : i ∈ ([0, 2] : List PointIx)) : demo.Claimable .a i ∧ demo.Available .a i := by
  simp only [List.mem_cons, List.not_mem_nil, or_false] at h
  rcases h with rfl | rfl
  · exact own0
  · exact free2

theorem witness_ClaimGrantsEveryPoint :
    let s : State := { demo with counts := ⟨127, 3, 2, 1⟩ }
    (ask s .a (.claim (claimOf [0, 2]))).Due .a (.claim (claimOf [0, 2])) ∧ ClaimArgsPass (claimOf [0, 2]) [0, 2] .hold ∧
      (∀ i ∈ ([0, 2] : List PointIx), s.Claimable .a i ∧ s.Available .a i) ∧ s.counts.get .a + s.freeCount [0, 2] ≤ 128 :=
  ⟨due_ask _ _ _ demo_running, ⟨rfl, by decide +kernel, by decide +kernel, by decide +kernel⟩, both, by decide +kernel⟩

theorem witness_ClaimRefusedOrWaiting :
    (ask demo .a (.claim (claimOf [2, 9]))).Due .a (.claim (claimOf [2, 9])) ∧
      ClaimArgsPass (claimOf [2, 9]) [2, 9] .hold ∧ demo.Claimable .a 2 ∧ demo.slot 9 = none ∧
      demo.slot 3 = some p3 ∧ p3.defn.rights.hasPort .a = false ∧ demo.slot 6 = some p6 ∧
      p6.holder.party = some (.port .b) ∧ demo.Available .a 2 ∧ (claimOf [2, 6]).wait = false ∧
      128 < ({ demo with counts := ⟨128, 3, 2, 1⟩ } : State).counts.get .a + demo.freeCount [0, 2] ∧
      (∃ f ∈ (claimOf [512]).points, 512 ≤ f.toNat) ∧ ¬ (claimOf [2, 2]).points.Nodup ∧
      1 < ({ claimOf [2] with mode := 2 } : ClaimArgs).mode.toNat ∧
      (({ waitFor [2] with waitLimit := 0 } : ClaimArgs).wait = true ∧
        ({ waitFor [2] with waitLimit := 0 } : ClaimArgs).waitLimit = 0) :=
  ⟨due _, ⟨rfl, by decide +kernel, by decide +kernel, by decide +kernel⟩, free2.1, slot9, slot3, by decide +kernel, slot6, by decide +kernel, free2.2, rfl,
    by decide +kernel, beyond (by simp [claimOf]), by decide +kernel, by decide +kernel, rfl, rfl⟩

theorem witness_ClaimRefusedOrWaiting_wait :
    (ask demo .a (.claim (waitFor [6]))).Due .a (.claim (waitFor [6])) ∧ ClaimArgsPass (waitFor [6]) [6] .hold ∧
      (waitFor [6]).wait = true ∧ demo.Claimable .a 6 ∧ ¬ demo.Available .a 6 ∧ 1 < ([2, 6] : List PointIx).length ∧
      p6.holder.party = some (.port .b) ∧ Port.a ∉ p6.waiting ∧ p6.waiters.length < 3 ∧ demo.counts.get .a + 1 ≤ 128 ∧
      Port.c ∈ p6.waiting ∧ demo.Claimable .a 4 ∧ Port.a ∉ p4.waiting ∧ 3 ≤ p4.waiters.length ∧
      128 < ({ demo with counts := ⟨128, 3, 2, 1⟩ } : State).counts.get .a + 1 :=
  ⟨due _, ⟨rfl, by decide +kernel, by decide +kernel, by decide +kernel⟩, rfl, taken6, not_available6, by decide +kernel, by decide +kernel, by decide +kernel, by decide +kernel,
    by decide +kernel, by decide +kernel, taken4, by decide +kernel, by decide +kernel, by decide +kernel⟩

theorem witness_HandoverToTheOldestWaiter :
    demo.slot 0 = some p0 ∧ p0.waiters = waitOf .b 4 :: [] ∧ demo.slot 1 = some p1 ∧ p1.waiters = [] := ⟨slot0, rfl, slot1, rfl⟩

theorem witness_ReleaseFreesWhatThePortHolds :
    (ask demo .a (.release ⟨0, [0, 511]⟩)).Due .a (.release ⟨0, [0, 511]⟩) ∧ Names [0, 511] [0, 511] ∧
      (ask demo .a (.release ⟨1, []⟩)).Due .a (.release ⟨1, []⟩) ∧
      (ask demo .a (.release ⟨0, [512]⟩)).Due .a (.release ⟨0, [512]⟩) ∧ (∃ f ∈ ([512] : List Half), 512 ≤ f.toNat) ∧
      (2#8 ≠ 0 ∧ 2#8 ≠ 1) :=
  ⟨due _, rfl, due _, due _, beyond (by simp), by decide +kernel⟩

theorem witness_RenewRestartsLeases :
    (ask demo .a (.renew ⟨0, [0, 511]⟩)).Due .a (.renew ⟨0, [0, 511]⟩) ∧ Names [0, 511] [0, 511] ∧
      (ask demo .a (.renew ⟨1, []⟩)).Due .a (.renew ⟨1, []⟩) ∧
      (ask demo .a (.renew ⟨0, [512]⟩)).Due .a (.renew ⟨0, [512]⟩) ∧ (∃ f ∈ ([512] : List Half), 512 ≤ f.toNat) ∧
      (∀ c, Holder.scanner ≠ .port c) :=
  ⟨due _, rfl, due _, due _, beyond (by simp), nofun⟩

theorem witness_WithdrawRemovesTheWait :
    (ask demo .c (.withdraw 6)).Due .c (.withdraw 6) ∧ (6#16).toNat = (6 : PointIx).val ∧ demo.slot 6 = some p6 ∧
      Port.c ∈ p6.waiting ∧ demo.slot 511 = some p511 ∧ Port.a ∉ p511.waiting ∧ 512 ≤ (512#16).toNat :=
  ⟨due_ask _ _ _ demo_running, by decide +kernel, slot6, by decide +kernel, slot511, by decide +kernel, by decide +kernel⟩

theorem witness_BatchIsOpenedAndDiscarded :
    (ask demo .a .batchOpen).Due .a .batchOpen ∧ demo.batches.get .a = some [⟨0, 50⟩, ⟨1, 3⟩] ∧
      (ask demo .b .batchOpen).Due .b .batchOpen ∧ demo.batches.get .b = none ∧
      (ask demo .a .batchDiscard).Due .a .batchDiscard ∧ (ask demo .b .batchDiscard).Due .b .batchDiscard :=
  ⟨due _, by decide +kernel, due_ask _ _ _ demo_running, by decide +kernel, due _, due_ask _ _ _ demo_running⟩

theorem witness_BatchPutStagesInOrder :
    (ask demo .a (.batchPut [⟨511, 1⟩])).Due .a (.batchPut [⟨511, 1⟩]) ∧ demo.batches.get .a = some [⟨0, 50⟩, ⟨1, 3⟩] ∧
      demo.batches.get .b = none ∧ (∃ a ∈ [(⟨512, 1⟩ : PutArgs)], 512 ≤ a.point.toNat) ∧
      [(⟨511, 1⟩ : PutArgs)].map (fun a => (a.point.toNat, a.value)) =
        [(⟨511, 1⟩ : BatchEntry)].map (fun e => (e.point.val, e.value)) ∧
      ([⟨511, 1⟩].foldl Batch.put [⟨0, 50⟩, ⟨1, 3⟩]).length ≤ 16 ∧
      16 < ([⟨511, 1⟩].foldl Batch.put ((List.range 16).map fun k => ⟨Fin.ofNat 512 k, 0⟩)).length :=
  ⟨due _, by decide +kernel, by decide +kernel, by decide +kernel, by decide +kernel, by decide +kernel, by decide +kernel⟩

theorem witness_CommitRefusedAppliesNothing :
    let s := demo.setBatch .a (some [⟨0, 50⟩, ⟨1, 101⟩])
    (ask s .a (.batchCommit true)).Due .a (.batchCommit true) ∧ s.batches.get .a = some [⟨0, 50⟩, ⟨1, 101⟩] ∧
      s.commitCheck .a ⟨0, 50⟩ = none ∧ s.commitCheck .a ⟨1, 101⟩ = some .outOfRange ∧ demo.batches.get .b = none ∧
      s.slot 9 = none ∧ s.slot 6 = some p6 ∧ p6.heldBy (.port .a) = false ∧ p1.heldBy (.port .a) = true :=
  ⟨due_ask _ _ _ demo_running, by decide +kernel, by decide +kernel, by decide +kernel, by decide +kernel, slot9, slot6, by decide +kernel,
    by decide +kernel⟩

theorem witness_CommitWritesEveryEntry :
    (ask demo .a (.batchCommit true)).Due .a (.batchCommit true) ∧ demo.batches.get .a = some [⟨0, 50⟩, ⟨1, 3⟩] ∧
      Batch.sound [⟨0, 50⟩, ⟨1, 3⟩] ∧ (∀ x ∈ [(⟨0, 50⟩ : BatchEntry), ⟨1, 3⟩], demo.commitCheck .a x = none) ∧
      [(⟨0, 101⟩ : BatchEntry)].length ≤ 16 ∧ (demo.clampMarks [⟨0, 101⟩]).getLsbD 0 = true ∧ demo.slot 0 = some p0 :=
  ⟨due _, by decide +kernel, ⟨by decide +kernel, by decide +kernel⟩, by decide +kernel, by decide +kernel, by decide +kernel, slot0⟩

theorem witness_SubscriptionsStartAndEnd :
    (ask demo .a (.subscribe ⟨511, 2, 1⟩)).Due .a (.subscribe ⟨511, 2, 1⟩) ∧ (511#16).toNat = (511 : PointIx).val ∧
      demo.slot 511 = some p511 ∧ demo.slot 9 = none ∧ 512 ≤ (512#16).toNat ∧ 2 < (3#8).toNat ∧
      (ask demo .b (.unsubscribe 0)).Due .b (.unsubscribe 0) ∧ demo.sub .b 0 ≠ none ∧ demo.sub .a 0 = none :=
  ⟨due _, by decide +kernel, slot511, slot9, by decide +kernel, by decide +kernel, due_ask _ _ _ demo_running, by decide +kernel, by decide +kernel⟩

/-- A notice of point i. -/
def noticeOf (i : PointIx) : Notice := ⟨.point i, 1, .point 0 .good 1, 255⟩

theorem witness_RaiseMergesQueuesOrOwes :
    let u : NoticeUnit := { (demo.notices.get .d) with queue := [noticeOf 3, noticeOf 0] }
    (demo.setNotices .d u).notices.get .d = u ∧ u.queue = [noticeOf 3] ++ noticeOf 0 :: [] ∧
      (noticeOf 0).subject = .point 0 ∧ (∀ m ∈ [noticeOf 3] ++ [], m.subject ≠ .point 0) ∧ Subject.point 1 ∉ u.queued ∧
      u.queue.length < 32 ∧
      (Subject.point 511 ∉ ((List.range 32).map fun k => noticeOf (Fin.ofNat 512 k)).map Notice.subject ∧
        32 ≤ ((List.range 32).map fun k => noticeOf (Fin.ofNat 512 k)).length) := by
  refine ⟨rfl, rfl, rfl, by decide +kernel, by decide +kernel, by decide +kernel, by decide +kernel, by decide +kernel⟩

theorem witness_FetchRemovesAndDrains :
    (ask demo .a (.fetch 0)).Due .a (.fetch 0) ∧ (ask demo .a (.fetch 1)).Due .a (.fetch 1) ∧
      (ask demo .a (.fetch 4)).Due .a (.fetch 4) ∧ (ask demo .a (.fetch 5)).Due .a (.fetch 5) ∧ 1 ≤ (1#8).toNat ∧
      (4#8).toNat ≤ 4 ∧ 4 < (5#8).toNat := ⟨due _, due _, due _, due _, by decide +kernel, by decide +kernel, by decide +kernel⟩

theorem witness_OutputLinesAreBoundAndDriven_levels :
    (⟨some 0, .low, false, .high⟩ : Output).point = some 0 ∧ demo.slot 0 = some p0 ∧ p0.quality = .good ∧
      demo.slot 9 = none ∧ demo.slot 2 = some p2 ∧ p2.quality = .unset := ⟨rfl, slot0, rfl, slot9, slot2, rfl⟩

theorem witness_OutputLinesAreBoundAndDriven :
    (ask demo .a (.outputBind ⟨7, 511, 1, true⟩)).Due .a (.outputBind ⟨7, 511, 1, true⟩) ∧ (7#8).toNat = (7 : Fin 8).val ∧
      (511#16 ≠ 0xFFFF ∧ (511#16).toNat = (511 : PointIx).val) ∧ 7 < (8#8).toNat ∧
      (511 < (512#16).toNat ∧ 512#16 ≠ 0xFFFF) ∧ 1 < (2#8).toNat :=
  ⟨due _, by decide +kernel, by decide +kernel, by decide +kernel, by decide +kernel, by decide +kernel⟩

theorem witness_ResponsesAreLaidOut :
    (∀ e ∈ [Entry.answered 1 .ok .empty], Entry.isAnswered e = true) ∧ ∀ e ∈ ([] : List Entry), Entry.isAnswered e = true :=
  ⟨by decide, by decide⟩

theorem witness_RaiseMergesQueuesOrOwes_states :
    demo.slot 511 = some p511 ∧ demo.slot 9 = none ∧ demo.order 31 = some o31 ∧ demo.order 1 = none :=
  ⟨slot511, slot9, by decide +kernel, by decide +kernel⟩

/-- An ORDER_DEFINE that ends at point 511 on both sides. -/
def orderArgs : OrderArgs := ⟨⟨0, 0⟩, 496, 16, 496, 0, 0, 0, 0, 0, 0, 65535, 7⟩
/-- The definition it gives. -/
def orderDefined : OrderDef := ⟨.a, .request, 496, 16, 496, .fixed, .copy, 65535, some 7⟩

/-- The demonstration table with order 31 stopping. -/
def stopping : State := { demo with executor := some ⟨31, 0, true⟩ }

theorem witness_OrderDefineClearAndQuery :
    (ask demo .a (.orderDefine 31 orderArgs)).Due .a (.orderDefine 31 orderArgs) ∧ orderDef? .a orderArgs = some orderDefined ∧
      orderDef? .a { orderArgs with runLength := 17 } = none ∧ 31 < (32#8).toNat ∧ demo.armed 0 = true ∧
      demo.armed 31 = false ∧ demo.runFlag 31 ≠ .stopping ∧ stopping.armed 31 = false ∧ stopping.runFlag 31 = .stopping ∧
      (ask demo .a (.orderClear 31)).Due .a (.orderClear 31) ∧ (ask demo .a (.orderQuery 31)).Due .a (.orderQuery 31) ∧
      stopping.executor = some ⟨31, 0, true⟩ ∧ (∀ r, stopping.executor = some r → r.order ≠ 0) ∧
      ∀ r, demo.executor = some r → r.order ≠ 0 :=
  ⟨due _, by decide +kernel, by decide +kernel, by decide +kernel, by decide +kernel, by decide +kernel, by decide +kernel, by decide +kernel,
    by decide +kernel, due _, due _, rfl, (fun r h => by cases h; decide), fun r h => by rw [demo_idle] at h; cases h⟩

/-- The checks of ORDER_DEFINE at the ends of their ranges: a wrap of 32 windows of 16 points fits exactly at source base 0. -/
theorem witness_OrderDefineClearAndQuery_bounds :
    (orderDef? .a { orderArgs with source := 0, step := 2, wrap := 32 }).isSome ∧
      orderDef? .a { orderArgs with source := 1, step := 2, wrap := 32 } = none ∧
      orderDef? .a { orderArgs with source := 0, step := 2, wrap := 33, runLength := 1 } = none ∧
      orderDef? .a { orderArgs with source := 0, step := 2, wrap := 0 } = none ∧
      orderDef? .a { orderArgs with dest := 497 } = none ∧ (orderDef? .a { orderArgs with trigger := ⟨1, 7⟩ }).isSome ∧
      orderDef? .a { orderArgs with trigger := ⟨1, 8⟩ } = none ∧ orderDef? .a { orderArgs with chain := 32 } = none :=
  ⟨by decide +kernel, by decide +kernel, by decide +kernel, by decide +kernel, by decide +kernel, by decide +kernel, by decide +kernel, by decide +kernel⟩

theorem order0 : demo.order 0 = some o0 := by decide +kernel
theorem order31 : demo.order 31 = some o31 := by decide +kernel
theorem internal2 : demo.FreeForInternal 2 := ⟨p2, slot2, rfl, rfl⟩

/-- Order 31 with its copy into point 2 alone. -/
def o31' : Order := { o31 with defn := { o31.defn with runLength := 1, dest := 2 } }

theorem witness_OrderArmClaimsEveryDestination :
    (ask demo .a (.orderArm 31)).Due .a (.orderArm 31) ∧ demo.order 31 = some o31 ∧ demo.armed 31 = false ∧
      demo.runFlag 31 ≠ .stopping ∧ o31.defn.dests = [] ++ 1 :: [2] ∧ demo.slot 1 = some p1 ∧
      p1.defn.rights.internal = true ∧ p1.holder.party = some (.port .a) ∧ demo.slot 9 = none ∧ demo.slot 3 = some p3 ∧
      p3.defn.rights.internal = false ∧ demo.order 1 = none ∧ demo.armed 0 = true ∧ 31 < (32#8).toNat ∧
      stopping.runFlag 31 = .stopping ∧ o31'.defn.dests = [2] ∧ demo.FreeForInternal 2 ∧
      orderDefined.dest.val + orderDefined.runLength ≤ 512 :=
  ⟨due _, order31, by decide +kernel, by decide +kernel, by decide +kernel, slot1, rfl, rfl, slot9, slot3, rfl, by decide +kernel,
    by decide +kernel, by decide +kernel, by decide +kernel, by decide +kernel, internal2, by decide⟩

theorem witness_OrderArmClaimsEveryDestination_granted :
    let s := demo.setOrder 31 (some o31')
    (ask s .a (.orderArm 31)).Due .a (.orderArm 31) ∧ s.order 31 = some o31' ∧ s.armed 31 = false ∧
      s.runFlag 31 ≠ .stopping ∧ ∀ i ∈ o31'.defn.dests, s.FreeForInternal i := by
  refine ⟨due_ask _ _ _ demo_running, by decide +kernel, by decide +kernel, by decide +kernel, ?_⟩
  intro i hi
  have : i = 2 := by revert hi; revert i; decide +kernel
  subst this
  exact internal2

theorem witness_OrderDisarmReleasesItsPoints :
    (ask demo .a (.orderDisarm 0)).Due .a (.orderDisarm 0) ∧ demo.order 0 = some o0 ∧ o0.phase = .armed ∧
      (ask demo .a (.orderDisarm 31)).Due .a (.orderDisarm 31) ∧ demo.order 31 = some o31 ∧ o31.phase = .disarmed ∧
      demo.order 1 = none ∧ ({ o31 with phase := .retired } : Order).phase = .retired ∧ 31 < (32#8).toNat :=
  ⟨due _, order0, rfl, due _, order31, rfl, by decide +kernel, rfl, by decide +kernel⟩

theorem witness_TriggersReachTheirConsumers :
    o0.pending < 3 ∧ 3 ≤ ({ o0 with pending := 3 } : Order).pending ∧
      (let s := demo.setOrder 0 (some { o0 with pending := 1 })
       s.executor = none ∧ s.order 0 = some { o0 with pending := 1 } ∧ ({ o0 with pending := 1 } : Order).ready = true ∧
         ∀ m, m < 0 → ∀ x ∈ s.order m, x.ready = false) ∧
      stopping.executor = some ⟨31, 0, true⟩ ∧ (∀ m, ∀ o ∈ demo.order m, o.ready = false) ∧ sc0.phase = .armed ∧
      ({ sc0 with phase := .converting } : Scanner).mode = .single ∧ (ask demo .a (.orderFire 0)).Due .a (.orderFire 0) ∧
      demo.armed 31 = false ∧ o0.phase = .armed := by
  refine ⟨by decide +kernel, by decide +kernel, ⟨demo_idle, by decide +kernel, by decide +kernel, fun m h => absurd h (Nat.not_lt_zero _)⟩, rfl,
    by decide +kernel, rfl, rfl, due _, by decide +kernel, rfl⟩

theorem witness_TransformArithmetic : (0 : Word) = 0 ∨ (0 : Word) = 1 := .inl rfl

/-- The demonstration table with order 0 running its one copy. -/
def copying : State := { demo with executor := some ⟨0, 0, false⟩ }
/-- Order 0 with a run of two copies, into points 4 and 5. -/
def o0' : Order := { o0 with defn := { o0.defn with runLength := 2 } }

theorem witness_OrderCopyTakesItsSteps :
    demo.heldAt 5 (.order 0) = false ∧ demo.slot 4 = some p4 ∧ p4.heldBy (.order 0) = true ∧ demo.slot 9 = none ∧
      demo.slot 2 = some p2 ∧ p2.quality = .unset ∧ demo.slot 0 = some p0 ∧ p0.quality ≠ .unset ∧
      stopping.held = false ∧ stopping.executor = some ⟨31, 0, true⟩ ∧ stopping.order 31 = some o31 ∧
      stopping.heldAt (PointIx.plus o31.defn.dest 0) (.order 31) = false ∧
      (copying.setOrder 0 (some o0')).order 0 = some o0' ∧ 0 + 1 < o0'.defn.runLength ∧ (496 : PointIx).val + 15 < 512 :=
  ⟨by decide +kernel, slot4, by decide +kernel, slot9, slot2, rfl, slot0, by decide +kernel, demo_running, rfl, order31, by decide +kernel,
    by decide +kernel, by decide +kernel, by decide⟩

theorem witness_RunEndsInOrder :
    copying.held = false ∧ copying.executor = some ⟨0, 0, false⟩ ∧ copying.order 0 = some o0 ∧
      o0.defn.runLength ≤ 0 + 1 ∧ ((copying.applyCopy (copying.copyOutcome 0 o0 0)).order 0).isSome ∧
      o0.defn.step = .fixed ∧ ({ o0.defn with step := .step } : OrderDef).step = .step ∧
      511 < (511 : PointIx).val + 2 * 1 - 1 ∧ (510 : PointIx).val + 2 * 1 - 1 ≤ 511 ∧
      (1 : PointIx).val + 1 = (0 : PointIx).val + 2 * 1 ∧ (0 : PointIx).val + 1 ≠ (0 : PointIx).val + 2 * 1 :=
  ⟨demo_running, rfl, order0, by decide +kernel, by decide +kernel, rfl, rfl, by decide +kernel, by decide +kernel, by decide +kernel, by decide +kernel⟩

/-- A run end of an order that goes on, with a second run left, and of one whose repeat count is 0. -/
theorem witness_RunEndsInOrder_goes_on :
    let o : Order := { o0 with defn := { o0.defn with runs := 2 }, remaining := 2 }
    let s := copying.setOrder 0 (some o)
    s.held = false ∧ s.executor = some ⟨0, 0, false⟩ ∧ s.order 0 = some o ∧ o.defn.runLength ≤ 0 + 1 ∧
      (s.applyCopy (s.copyOutcome 0 o 0)).order 0 = some o ∧ ¬ (o.defn.runs ≠ 0 ∧ o.remaining - 1 = 0) ∧
      ¬ (({ o.defn with runs := 0 } : OrderDef).runs ≠ 0 ∧ (0 : Nat) - 1 = 0) :=
  ⟨demo_running, rfl, by decide +kernel, by decide, by decide +kernel, by decide, by decide⟩

/-- The last part of a scan list of one entry. -/
def lastPart : ScanPartArgs := ⟨0, ⟨0, 0⟩, 0, true, [⟨7, 511, 1, 2, 1⟩]⟩
/-- The list it makes. -/
def wholeList : ScanDefineArgs := ⟨0, ⟨0, 0⟩, [⟨7, 511, 1, 2, 1⟩]⟩

theorem witness_ScanDefineInParts :
    (ask demo .a (.scanDefinePart lastPart)).Due .a (.scanDefinePart lastPart) ∧ lastPart.first = 0 ∧
      ([] : List ScanEntryArgs).length = lastPart.first.toNat ∧ ([] ++ lastPart.entries).length ≤ 16 ∧ lastPart.last = true ∧
      ({ lastPart with last := false } : ScanPartArgs).last = false ∧
      ([] : List ScanEntryArgs).length ≠ ({ lastPart with first := 1 } : ScanPartArgs).first.toNat ∧
      (ask demo .a (.scanDefine wholeList)).Due .a (.scanDefine wholeList) ∧ (scannerOf? .a wholeList).isSome ∧
      scannerOf? .a { wholeList with mode := 2 } = none ∧ demo.scanner.any Scanner.holds = true ∧
      ({ demo with scanner := none } : State).scanner.any Scanner.holds = false ∧
      (∀ e ∈ [Entry.answered 1 .ok .empty], Entry.isAnswered e = true) :=
  ⟨due _, rfl, rfl, by decide +kernel, rfl, rfl, by decide +kernel, due _, by decide +kernel, by decide +kernel, by decide +kernel, rfl, by decide⟩

/-- The demonstration table with the scanner DEFINED, into the free point 2. -/
def disarmed : State := { demo with scanner := some { sc0 with phase := .defined, entries := [⟨0, 2, 256, 0, true⟩] } }

theorem witness_ScannerRequestsByState :
    (ask disarmed .a .scanArm).Due .a .scanArm ∧ ({ sc0 with phase := .defined } : Scanner).phase = .defined ∧
      (∀ i ∈ ([2] : List PointIx), disarmed.FreeForInternal i) ∧
      sc0.entries.map ScanEntry.dest = [] ++ 5 :: [] ∧ demo.slot 5 = some p5 ∧ p5.defn.rights.internal = true ∧
      p5.holder.party = some .scanner ∧ demo.slot 3 = some p3 ∧ p3.defn.rights.internal = false ∧ demo.slot 9 = none ∧
      (ask demo .a .scanDisarm).Due .a .scanDisarm ∧ demo.scanner = some sc0 ∧ sc0.phase ≠ .defined ∧
      (ask demo .a .scanStart).Due .a .scanStart ∧ (ask demo .a .scanStop).Due .a .scanStop ∧ sc0.phase = .armed ∧
      ({ sc0 with phase := .converting } : Scanner).phase = .converting ∧ (ask demo .a .scanQuery).Due .a .scanQuery := by
  refine ⟨due_ask _ _ _ demo_running, rfl, ?_, rfl, slot5, rfl, rfl, slot3, rfl, slot9, due _, demo_scanner, by decide +kernel, due _, due _, rfl, rfl, due _⟩
  intro i hi
  simp only [List.mem_cons, List.not_mem_nil, or_false] at hi
  subst hi
  exact ⟨p2, slot2, rfl, rfl⟩

theorem witness_ConversionWritesItsResult :
    let sc : Scanner := { sc0 with phase := .converting }
    let s : State := { demo with scanner := some sc }
    s.held = false ∧ s.scanner = some sc ∧ sc.phase = .converting ∧ (∀ i, sc.trigger ≠ .point i) ∧
      sc.entries[sc.current]? = some ⟨0, 5, 256, 0, true⟩ ∧ s.slot 5 = some p5 ∧ p5.heldBy .scanner = true :=
  ⟨demo_running, rfl, rfl, nofun, rfl, slot5, by decide +kernel⟩

theorem witness_TickIsProducedAndSet :
    demo.held = false ∧ demo.tickGen.running = true ∧ (ask demo .a (.tickSet 1 0)).Due .a (.tickSet 1 0) ∧
      (ask demo .a (.tickSet 10000 1)).Due .a (.tickSet 10000 1) ∧ (1 ≤ (1#16).toNat ∧ (10000#16).toNat ≤ 10000) ∧
      10000 < (10001#16).toNat ∧ 1 < (2#8).toNat := ⟨demo_running, by decide +kernel, due _, due _, by decide +kernel, by decide +kernel, by decide +kernel⟩

theorem witness_AgeingAtATick : demo.held = false ∧ demo.ageingDue = true ∧ demo.goesStale 0 = true :=
  ⟨demo_running, by decide +kernel, by decide +kernel⟩

theorem witness_ArbiterTickCountsDown :
    demo.held = false ∧ demo.arbiterDue = true ∧ p0 ∈ demo.slot 0 ∧ p0.lapsing = some .a ∧ p6 ∈ demo.slot 6 ∧
      Port.c ∈ p6.expiring ∧ p6.lapsing = none ∧ p0.holder = .port ⟨.a, some ⟨2, 1⟩, .hold⟩ ∧
      (∀ c, p4.holder ≠ .port c) :=
  ⟨demo_running, by decide +kernel, slot0, rfl, slot6, by decide +kernel, rfl, rfl, nofun⟩

theorem witness_TimersCountAndAreSet :
    demo.held = false ∧ demo.timerDue 3 = true ∧ demo.timers[3].remaining ≤ 1 ∧
      (let s := demo.setTimer 0 ⟨2, .oneShot, true, 2, 1⟩
       s.timerDue 0 = true ∧ 1 < s.timers[0].remaining) ∧
      (ask demo .a (.timerSet 3 65535 1)).Due .a (.timerSet 3 65535 1) ∧ (65535#16 : Half) ≠ 0 ∧ 3 < (4#8).toNat ∧
      (ask demo .a (.timerStop 3)).Due .a (.timerStop 3) :=
  ⟨demo_running, by decide +kernel, by decide +kernel, by decide +kernel, due _, by decide +kernel, by decide +kernel, due _⟩

theorem witness_LinesTakeEdgesAndSettings :
    demo.held = false ∧ demo.lines[7].settled ≠ .high ∧ (ask demo .a (.lineSet 7 3)).Due .a (.lineSet 7 3) ∧
      7 < (8#8).toNat ∧ 3 < (4#8).toNat := ⟨demo_running, by decide +kernel, due _, by decide +kernel, by decide +kernel⟩

theorem witness_SelectFixesTheFrame :
    demo.held = false ∧ (demo.ports.get .a).exchange = none ∧
      ((asked (.status .a)).ports.get .a).window.length = 1 ∧
      ((ask demo .a .status).ports.get .a).window = .accepted 1 .status :: [] ∧ (demo.ports.get .a).window = [] ∧
      (demo.notices.get .a).queue.length ≤ 32 ∧
      (let x : Exchange := { mode := .mode0, frame := [8, 0], carries := false, clearsDropped := false, clearsReset := false }
       x.frame[1]? = some 0 ∧ x.frame.length ≤ 2) :=
  ⟨demo_running, by decide +kernel, by decide +kernel, by decide +kernel, by decide +kernel, by decide +kernel, rfl, by decide⟩

theorem witness_ExchangeEndIsFaultyOrComplete :
    let s := after (.selectFalling .a .low) demo
    s.held = false ∧ (s.ports.get .a).exchange.isSome ∧ 8 * (List.replicate 63 (0 : Byte)).length + 7 ≠ 512 ∧
      8 * (List.replicate 64 (0 : Byte)).length + 1 ≠ 512 ∧ (List.replicate 64 (0 : Byte)).length = 64 := by
  refine ⟨by decide +kernel, by decide +kernel, by decide +kernel, by decide +kernel, by decide +kernel⟩

theorem witness_RequestFramesAreReadBack :
    (Request.write (List.replicate 8 ⟨511, 1, true⟩)).wf = true ∧
      (∀ x, Request.write (List.replicate 8 ⟨511, 1, true⟩) ≠ .scanDefine x) ∧
      (requestCode .tableReset).isConfig = true ∧ demo.config.get .a = true := ⟨by decide +kernel, nofun, rfl, by decide +kernel⟩

/-- Bodies at the ends of the lengths of check 4, and flag bytes other than 00h. -/
theorem witness_RequestFramesAreReadBack_bodies :
    (parseBody .read (List.replicate 14 0)).isSome = true ∧ parseBody .read (List.replicate 16 0) = none ∧ parseBody .read [] = none ∧
      parseBody .read [0] = none ∧ (parseBody .release [0]).isSome = true ∧ parseBody .release (List.replicate 35 0) = none ∧
      (parseBody .scanDefine (List.replicate 56 0)).isSome = true ∧ parseBody .scanDefine (List.replicate 6 0) = none ∧
      parseBody .status [0] = none ∧ parseBody .fetch [] = none ∧ parseBody .fetch [1, 2] = none ∧
      (2#8 ≠ 0 ∧ ([0, 1, 2, 3, 4, 5, 6, 0, 1, 2, 3, 4, 5] : List Byte).length % 7 = 6) ∧
      parseBody .batchCommit [0x80] = some (.batchCommit true) ∧ parseBody .batchCommit [0] = some (.batchCommit false) := by
  decide +kernel

theorem witness_CrcOfAFrame : 5 ≤ (([5] : List Byte).getD 0 0).toNat ∧ (([64] : List Byte).getD 0 0).toNat ≤ 64 := by decide +kernel

theorem witness_PortResetEndsThePortsState :
    (ask demo .a .portReset).Due .a .portReset ∧ (ask demo .a (.forcePortReset 4)).Due .a (.forcePortReset 4) ∧
      4#8 = portCode .d ∧ 1#8 = portCode .a ∧ ((0#8).toNat = 0 ∧ 4 < (5#8).toNat) ∧
      (∀ e ∈ [Entry.answered 1 .ok .empty], Entry.isAnswered e = true) :=
  ⟨due _, due _, by decide +kernel, by decide +kernel, by decide +kernel, by decide +kernel⟩

theorem witness_ConfigSetIsGrantedAndRevoked :
    (ask demo .a (.configGrant 4)).Due .a (.configGrant 4) ∧ 4#8 = portCode .d ∧
      (ask demo .a (.configRevoke 1)).Due .a (.configRevoke 1) ∧ 1#8 = portCode .a ∧ demo.config.get .a = true ∧
      (∀ o, o ≠ .a → demo.config.get o = false) ∧ demo.config.get .d = false ∧
      ((0#8).toNat = 0 ∧ 4 < (5#8).toNat) := by
  refine ⟨due _, by decide +kernel, due _, by decide +kernel, by decide +kernel, ?_, by decide +kernel, by decide +kernel⟩
  intro o h
  cases o
  · exact absurd rfl h
  all_goals decide +kernel

theorem witness_AttentionFollowsItsInputs :
    (ask demo .a (.attnSet 0 1)).Due .a (.attnSet 0 1) ∧ 1 < (2#8).toNat ∧ (0#8 = if false then 1 else 0) ∧
      (1#8 = if true then 1 else 0) ∧ (ask demo .a .status).Due .a .status :=
  ⟨due _, by decide +kernel, rfl, rfl, due _⟩

/-! ### Witnesses of the invariants: the demonstration table meets them all -/

/-- The points of the demonstration table. -/
def demoPoints : List (PointIx × Point) :=
  [(0, p0), (1, p1), (2, p2), (3, p3), (4, p4), (5, p5), (6, p6), (511, p511)]

theorem demo_points :
    demo.points = demoPoints.foldl (fun v x => v.set x.1.val (some x.2)) (Vector.replicate 512 none) := by
  unfold demo
  rfl

theorem mem_demoPoints {i : PointIx} {pt : Point} (h : demo.slot i = some pt) : (i, pt) ∈ demoPoints := by
  unfold State.slot at h
  rw [demo_points] at h
  simp only [demoPoints, List.foldl_cons, List.foldl_nil, Vector.getElem_set, Vector.getElem_replicate] at h
  repeat' split at h
  all_goals first
    | (rename_i hi
       replace hi := Fin.eq_of_val_eq hi
       rw [← hi]
       cases h
       simp [demoPoints])
    | cases h

theorem demo_everyPoint {P : Point → Prop} (h : ∀ x ∈ demoPoints, P x.2) : demo.everyPoint P :=
  fun _ _ hpt => h _ (mem_demoPoints hpt)

theorem witness_StepKeeps : step demo = .next demo := by
  have h : demo.pending = [] := by decide +kernel
  unfold step
  rw [h]

theorem witness_ValuesStayWithinLimits : demo.ValuesSound := by
  apply demo_everyPoint
  unfold Point.valueSound PointDef.sound
  decide +kernel

theorem witness_StaleExactlyAtMaxAge : demo.AgesSound := by
  apply demo_everyPoint
  unfold Point.ageSound
  decide +kernel

theorem holders_admitted : ∀ x ∈ demoPoints, x.2.holderAdmitted := by
  intro x hx
  simp only [demoPoints, List.mem_cons, List.not_mem_nil, or_false] at hx
  rcases hx with rfl | rfl | rfl | rfl | rfl | rfl | rfl | rfl
  · exact ⟨rfl, fun l hl => by cases hl; exact ⟨by decide, by decide, by decide⟩⟩
  · exact ⟨rfl, fun l hl => by cases hl⟩
  · trivial
  · trivial
  · rfl
  · rfl
  · exact ⟨rfl, fun l hl => by cases hl⟩
  · exact ⟨rfl, fun l hl => by cases hl; exact ⟨by decide, by decide, by decide⟩⟩

theorem witness_ClaimsAndCountsStaySound : demo.ClaimsSound ∧ demo.CountsSound := by
  refine ⟨demo_everyPoint fun x hx => ?_, fun p => ?_⟩
  · have h : ∀ x ∈ demoPoints, x.2.waiters.length ≤ Config.waitersMax ∧ x.2.waiting.Nodup ∧
        (∀ p ∈ x.2.waiting, x.2.holder.party ≠ some (.port p)) ∧ (x.2.holder = .none → x.2.waiters = []) := by decide +kernel
    have hw : ∀ x ∈ demoPoints, ∀ w ∈ x.2.waiters, w.sound ∧ x.2.defn.rights.hasPort w.port = true := by
      unfold Wait.sound
      decide +kernel
    obtain ⟨h1, h2, h3, h4⟩ := h x hx
    exact ⟨h1, h2, h3, h4, holders_admitted x hx, hw x hx⟩
  · cases p <;> decide +kernel

theorem witness_NoticeQueuesStaySound : demo.NoticesSound := by
  intro p
  unfold NoticeUnit.sound
  cases p <;> decide +kernel

theorem witness_PortsStaySound : demo.PortsSound := by
  have h : ∀ p ∈ Port.list, (demo.ports.get p).window = [] ∧ (demo.ports.get p).staged = [] ∧
      (demo.ports.get p).exchange = none ∧ (demo.ports.get p).attn = attnLevel (demo.ports.get p) (demo.notices.get p) := by
    decide +kernel
  intro p
  obtain ⟨hw, hs, he, ha⟩ := h p (by cases p <;> decide)
  refine ⟨?_, ?_, ?_, ha, ?_⟩
  · rw [hw]
    exact Nat.zero_le _
  · rw [hw]
    intro e he
    cases he
  · rw [hs]
    exact Nat.zero_le _
  · rw [he]
    intro x hx
    cases hx

theorem witness_OutputLinesFollowTheirPoints : demo.OutputsSound := by
  unfold State.OutputsSound
  decide +kernel

theorem witness_OrdersStaySound : demo.OrdersSound := by
  refine ⟨?_, ?_⟩
  · unfold Order.sound OrderDef.sound
    decide +kernel
  · unfold State.ExecutorSound
    rw [demo_idle]
    decide +kernel

theorem witness_InternalHoldersHoldTheirDestinations : demo.DestsHeld ∧ demo.ScanHeld := by
  have ho : ∀ n : OrderIx, (demo.order n).all (fun o => (n == 0 && o = o0) || o.phase = .disarmed) = true := by decide +kernel
  have hx : ∀ x ∈ demoPoints, (∀ n, x.2.holder.party = some (.order n) → x.1 = 4 ∧ n = 0) ∧
      (x.2.holder.party = some .scanner → x.1 = 5) := by
    intro x hx
    simp only [demoPoints, List.mem_cons, List.not_mem_nil, or_false] at hx
    rcases hx with rfl | rfl | rfl | rfl | rfl | rfl | rfl | rfl
    all_goals refine ⟨fun n h => ?_, fun h => ?_⟩
    all_goals first | (cases h; exact ⟨rfl, rfl⟩) | (cases h; rfl) | cases h
  refine ⟨fun n i => ⟨fun h => ?_, ?_⟩, fun i => ⟨fun h => ?_, ?_⟩⟩
  · unfold State.heldAt at h
    cases hs : demo.slot i with
    | none => rw [hs] at h; cases h
    | some pt =>
      rw [hs] at h
      obtain ⟨hi, hn⟩ := (hx _ (mem_demoPoints hs)).1 n (of_decide_eq_true h)
      subst hn
      replace hi : i = 4 := hi
      subst hi
      exact ⟨o0, order0, rfl, by decide +kernel⟩
  · rintro ⟨o, hon, ha, hd⟩
    have := ho n
    rw [hon] at this
    replace this : ((n == 0 && decide (o = o0)) || decide (o.phase = .disarmed)) = true := this
    rw [Bool.or_eq_true] at this
    rcases this with h | h
    · rw [Bool.and_eq_true] at h
      have hn : n = 0 := by simpa using h.1
      have hoo : o = o0 := of_decide_eq_true h.2
      subst hn hoo
      have : i = 4 := by revert hd; revert i; decide +kernel
      subst this
      decide +kernel
    · rw [of_decide_eq_true h] at ha
      cases ha
  · unfold State.heldAt at h
    cases hs : demo.slot i with
    | none => rw [hs] at h; cases h
    | some pt =>
      rw [hs] at h
      have hi := (hx _ (mem_demoPoints hs)).2 (of_decide_eq_true h)
      replace hi : i = 5 := hi
      subst hi
      exact ⟨sc0, demo_scanner, rfl, by decide⟩
  · rintro ⟨sc, hsc, _, hd⟩
    rw [demo_scanner] at hsc
    cases hsc
    have : i = 5 := by revert hd; revert i; decide +kernel
    subst this
    decide +kernel

theorem witness_ScannerRecordStaysSound : demo.PortsSound ∧ demo.ScannerSound := by
  refine ⟨witness_PortsStaySound, fun sc hsc => ?_⟩
  rw [demo_scanner] at hsc
  cases hsc
  exact ⟨by decide, by decide, by decide, by decide, fun _ => ⟨rfl, rfl⟩, by decide, nofun, by decide⟩

theorem demo_subs (p : Port) (h : p ≠ .b) : (demo.notices.get p).subs = Vector.replicate 512 none := by
  unfold demo
  cases p
  case b => exact absurd rfl h
  all_goals rfl

theorem demo_subs_b :
    (demo.notices.get .b).subs = (Vector.replicate 512 none).set 0 (some ⟨.change, 7⟩) := by
  unfold demo
  rfl

theorem demo_sub (p : Port) (i : PointIx) : demo.sub p i = none ∨ i = 0 := by
  unfold State.sub
  by_cases hp : p = .b
  · subst hp
    rw [demo_subs_b, Vector.getElem_set]
    split
    · rename_i h
      exact .inr (Fin.eq_of_val_eq h.symm)
    · exact .inl (Vector.getElem_replicate _)
  · rw [demo_subs p hp]
    exact .inl (Vector.getElem_replicate _)

theorem demo_batch : ∀ p, demo.batches.get p = none ∨ demo.batches.get p = some [⟨0, 50⟩, ⟨1, 3⟩]
  | .a => by decide +kernel
  | .b => by decide +kernel
  | .c => by decide +kernel
  | .d => by decide +kernel

theorem demo_time : demo.TimeSound := by
  unfold State.TimeSound Timer.sound
  decide +kernel

theorem demo_config : demo.ConfigSound := by
  unfold State.ConfigSound
  decide +kernel

theorem witness_BatchesSubscriptionsTimeAndSetStaySound :
    demo.BatchesSound ∧ demo.SubsSound ∧ demo.TimeSound ∧ demo.ConfigSound := by
  refine ⟨fun p b hb => ?_, fun p i hi => ?_, demo_time, demo_config⟩
  · rcases demo_batch p with h | h <;> rw [h] at hb <;> cases hb
    exact ⟨by decide, by decide⟩
  · rcases demo_sub p i with h | h
    · rw [h] at hi
      cases hi
    · rw [h, slot0]
      rfl

end Sys2Proof.Machine.Test
end

/-! PROOFS. The point table: which commands can change points and counts at all, the invariants of values and of claims that
follow from the operations on one point and on the table, then the requests of chapter 1, the conversion's write, the events
that are not due, and the reset state. -/

namespace Sys2Proof.Machine

/-! ### Which commands can change the points and the counts -/

/-- The commands that can change a point or a port's count; the others leave both alone (exec_leaves_table). -/
def movesTable : Instr → Bool
  | .coldReset | .write .. | .define .. | .undefine .. | .tableReset .. | .claim .. | .release .. | .renew .. | .withdraw ..
  | .tickAgeing | .pointStale .. | .claimArbiterTick | .leaseLapse .. | .waitExpiry .. | .batchCommit .. | .orderArm ..
  | .orderDisarm .. | .orderCopy | .scanArm .. | .scanDisarm .. | .conversionCompletion .. | .portReset ..
  | .forcePortReset .. => true
  | _ => false

/-- Two fields read on both sides of a footprint. -/
theorem table_of_frame {s t w : State} (h : w = s) (hp : w.points = t.points := by rfl) (hc : w.counts = t.counts := by rfl) :
    t.points = s.points ∧ t.counts = s.counts := by
  subst h
  exact ⟨hp.symm, hc.symm⟩

/-- A command that is not one of them leaves every point and every count as it is. -/
theorem exec_leaves_table {c : Instr} {s t : State} (hc : movesTable c = false) (h : exec c s = .next t) :
    t.points = s.points ∧ t.counts = s.counts := by
  cases c with
  | selectFalling => exact table_of_frame (execSelectFalling_frame h)
  | exchangeEnd => exact table_of_frame (execExchangeEnd_frame h)
  | read => exact table_of_frame (execRead_frame h)
  | tick => exact table_of_frame (execTick_frame h)
  | timerTick => exact table_of_frame (execTimerTick_frame h)
  | timerExpiry => exact table_of_frame (execTimerExpiry_frame h)
  | lineEdge => exact table_of_frame (execLineEdge_frame h)
  | batchOpen => exact table_of_frame (execBatchOpen_frame h)
  | batchPut => exact table_of_frame (execBatchPut_frame h)
  | batchDiscard => exact table_of_frame (execBatchDiscard_frame h)
  | subscribe => exact table_of_frame (execSubscribe_frame h)
  | unsubscribe => exact table_of_frame (execUnsubscribe_frame h)
  | fetch => exact table_of_frame (execFetch_frame h)
  | orderDefine => exact table_of_frame (execOrderDefine_frame h)
  | orderFire => exact table_of_frame (execOrderFire_frame h)
  | orderQuery => exact table_of_frame (execOrderQuery_frame h)
  | orderClear => exact table_of_frame (execOrderClear_frame h)
  | scanDefinePart => exact table_of_frame (execScanDefinePart_frame h)
  | scanDefine => exact table_of_frame (execScanDefine_frame h)
  | scanStart => exact table_of_frame (execScanStart_frame h)
  | scanStop => exact table_of_frame (execScanStop_frame h)
  | scanQuery => exact table_of_frame (execScanQuery_frame h)
  | tickSet => exact table_of_frame (execTickSet_frame h)
  | timerSet => exact table_of_frame (execTimerSet_frame h)
  | timerStop => exact table_of_frame (execTimerStop_frame h)
  | lineSet => exact table_of_frame (execLineSet_frame h)
  | outputBind => exact table_of_frame (execOutputBind_frame h)
  | configGrant => exact table_of_frame (execConfigGrant_frame h)
  | configRevoke => exact table_of_frame (execConfigRevoke_frame h)
  | attnSet => exact table_of_frame (execAttnSet_frame h)
  | status => exact table_of_frame (execStatus_frame h)
  | coldResetEnd => exact table_of_frame (execColdResetEnd_frame h)
  | _ => cases hc

/-! ### Properties of the points and the counts -/

/-- The operations on the points and the counts keep the property, which reads nothing else. -/
structure KeptByTable (Inv : State → Prop) : Prop where
  congr : ∀ s t, t.points = s.points → t.counts = s.counts → Inv s → Inv t
  reset : Inv State.reset
  store : ∀ s i pt x q, s.slot i = some pt → (q = .good ∨ q = .suspect) → Inv s → Inv (s.store i pt (pt.defn.fit x) q)
  release : ∀ s p i pt, s.slot i = some pt → pt.heldBy (.port p) = true → Inv s → Inv (s.releasePoint p i)
  define : ∀ s i args d, pointDef? args = some d → s.slotHeld i = false → Inv s → Inv (s.replaceSlot i (some d.fresh))
  undefine : ∀ s i, s.slotHeld i = false → Inv s → Inv (s.replaceSlot i none)
  tableReset : ∀ s, Inv s → Inv s.tableReset
  claim : ∀ s p (args : ClaimArgs) mode ixs, ixs.Nodup → (args.wait = true → args.waitLimit ≠ 0) → Inv s →
    Inv (s.takeClaim p args mode ixs).1
  releaseAll : ∀ s p, Inv s → Inv (s.releaseAll p)
  renew : ∀ s p i, Inv s → Inv (s.modifySlot i fun pt => pt.renewFor p)
  renewAll : ∀ s p, Inv s → Inv (s.mapPoints fun pt => pt.renewFor p)
  withdraw : ∀ s p i, ((s.waitersAt i).any fun w => w.port = p) = true → Inv s →
    Inv ((s.modifySlot i fun pt => { pt with waiters := withoutPort p pt.waiters }).countDown p)
  age : ∀ s, Inv s → Inv s.ageTable
  arbiterTick : ∀ s, Inv s → Inv s.arbiterTick
  releaseHeld : ∀ s w, (∀ p, w ≠ .port p) → Inv s → Inv (s.releaseHeld w)
  grantInternal : ∀ s h l, (h = .scanner ∨ ∃ n, h = .order n) → (∀ i ∈ l, s.FreeForInternal i) → Inv s →
    Inv (s.grantInternal h l)
  portReset : ∀ s p w, Inv s → Inv (s.portReset p w)

/-- A port holds a slot when the point in it is held by the port. -/
theorem State.holds_iff {s : State} {p : Port} {i : PointIx} :
    s.holds p i = true ↔ ∃ pt, s.slot i = some pt ∧ pt.heldBy (.port p) = true := by
  unfold State.holds
  cases s.slot i <;> simp

namespace KeptByTable

variable {Inv : State → Prop}

/-- A state with the same points and counts has the property too. -/
theorem same (K : KeptByTable Inv) {s t : State} (hs : Inv s) (hp : t.points = s.points := by rfl)
    (hc : t.counts = s.counts := by rfl) : Inv t :=
  K.congr s t hp hc hs

/-- The parts of a write are among the operations. -/
theorem writes (K : KeptByTable Inv) : KeptByWrites Inv where
  store := K.store
  raise s rs := K.congr s _ (State.raiseAll_points s rs) (State.raiseAll_counts s rs)
  release := K.release
  batch s _ _ := K.congr s _ rfl rfl

/-- An event keeps what its effect keeps. -/
theorem ofEvent (K : KeptByTable Inv) {due : Bool} {s t : State} {f : State → State} (hs : Inv s) (hf : Inv (f s))
    (h : event due s f = .next t) : Inv t :=
  event_keeps hs (fun _ _ => K.same hf) h

/-- The event of a request keeps what its effect keeps. -/
theorem ofRequest (K : KeptByTable Inv) {p : Port} {r : Request} {s t : State} {f : State → State} (hs : Inv s) (hf : Inv (f s))
    (h : onRequest p r s f = .next t) : Inv t :=
  K.ofEvent hs hf h

/-- An answer keeps it. -/
theorem answer (K : KeptByTable Inv) {s : State} (p : Port) (st : Status) (b : Body) (hs : Inv s) : Inv (s.answer p st b) :=
  K.same hs

/-- The entries of a list keep what the effect of each keeps at a point that the port holds. -/
theorem takeList {f : State → PointIx → State} {p : Port} (hf : ∀ s i, s.holds p i = true → Inv s → Inv (f s i)) {s : State}
    (ixs : List PointIx) (hs : Inv s) : Inv (State.takeList f p s ixs).1 := by
  induction ixs generalizing s with
  | nil => exact hs
  | cons i ixs ih =>
    unfold State.takeList
    split
    · exact ih (hf s i ‹_› hs)
    · exact ih hs

/-- A point that the port holds is released. -/
theorem releaseHolding (K : KeptByTable Inv) {s : State} {p : Port} {i : PointIx} (hh : s.holds p i = true) (hs : Inv s) :
    Inv (s.releasePoint p i) := by
  obtain ⟨pt, hpt, hb⟩ := State.holds_iff.1 hh
  exact K.release s p i pt hpt hb hs

/-- The executor's choice keeps it. -/
theorem freeExecutor (K : KeptByTable Inv) {s : State} (hs : Inv s) : Inv s.freeExecutor :=
  K.congr s _ (State.startRun_points _) (State.startRun_counts _) hs

/-- The end of a run keeps it. -/
theorem endRun (K : KeptByTable Inv) {s : State} (n : OrderIx) (o : Order) (hs : Inv s) : Inv (s.endRun n o) := by
  have pulse : ∀ w : State, Inv w → Inv (w.pulse o.defn.chain) := fun w hw => by
    unfold State.pulse
    split
    · exact hw
    · exact K.congr w _ (State.deliver_points ..) (State.deliver_counts ..) hw
  unfold State.endRun
  refine K.freeExecutor (pulse _ ?_)
  split
  · exact K.releaseHeld _ _ nofun (K.same hs)
  · exact K.same hs

/-- A copy event keeps it. -/
theorem takeCopy (K : KeptByTable Inv) {s : State} (r : Run) (o : Order) (hs : Inv s) : Inv (s.takeCopy r o) := by
  have copied := K.writes.applyCopy r.order o r.position hs
  have reported : Inv ((s.applyCopy (s.copyOutcome r.order o r.position)).modifyOrder r.order fun o' =>
      o'.report (s.copyOutcome r.order o r.position)) := K.same copied
  unfold State.takeCopy
  dsimp only
  split
  · exact K.freeExecutor reported
  · split
    · exact K.writes.raise _ _ (K.freeExecutor reported)
    · split
      · exact K.writes.raise _ _ (K.same reported)
      · exact K.writes.raise _ _ (K.endRun _ _ reported)

/-- A conversion keeps it. -/
theorem nextConversion (K : KeptByTable Inv) {s : State} (a b : Nat) (hs : Inv s) : Inv (s.nextConversion a b) := by
  unfold State.nextConversion State.endPass
  split
  · exact K.same hs
  · exact K.congr s _ (State.deliverToOrders_points ..) (State.deliverToOrders_counts ..) hs

/-- Every command keeps it. -/
theorem ofExec (K : KeptByTable Inv) {c : Instr} {s t : State} (hs : Inv s) (h : exec c s = .next t) : Inv t := by
  cases c with
  | coldReset => cases h; exact K.same K.reset
  | write p entries =>
    unfold exec execWrite at h
    refine K.ofRequest hs ?_ h
    split
    · exact K.answer _ _ _ hs
    · exact K.answer _ _ _ (K.writes.takeWrites p _ hs)
  | define p args =>
    unfold exec execDefine at h
    refine K.ofRequest hs ?_ h
    split
    · rename_i i d _ hd
      split
      · exact K.answer _ _ _ hs
      · exact K.answer _ _ _ (K.define s i args d hd (by simpa using ‹¬ s.slotHeld i = true›) hs)
    · exact K.answer _ _ _ hs
  | undefine p point =>
    unfold exec execUndefine at h
    refine K.ofRequest hs ?_ h
    split
    · exact K.answer _ _ _ hs
    · rename_i i _
      split
      · exact K.answer _ _ _ hs
      · split
        · exact K.answer _ _ _ hs
        · exact K.answer _ _ _ (K.undefine s i (by simpa using ‹¬ s.slotHeld i = true›) hs)
  | tableReset p =>
    unfold exec execTableReset at h
    refine K.ofRequest hs ?_ h
    exact K.tableReset _ (K.answer p .ok .empty hs)
  | claim p args =>
    unfold exec execClaim at h
    refine K.ofRequest hs ?_ h
    split
    · split
      · exact K.answer _ _ _ hs
      · rename_i ixs mode _ _ hpass
        simp only [Bool.or_eq_true, Bool.not_eq_true', decide_eq_false_iff_not, Bool.and_eq_true, decide_eq_true_eq, not_or,
          Decidable.not_not, not_and] at hpass
        exact K.answer _ _ _ (K.claim s p args mode ixs hpass.1 hpass.2 hs)
    · exact K.answer _ _ _ hs
  | release p args =>
    unfold exec execRelease at h
    refine K.ofRequest hs ?_ h
    split
    · exact K.answer _ _ _ hs
    · exact K.answer _ _ _ (takeList (fun _ _ hh hw => K.releaseHolding hh hw) _ hs)
    · exact K.answer _ _ _ (K.releaseAll s p hs)
  | renew p args =>
    unfold exec execRenew at h
    refine K.ofRequest hs ?_ h
    split
    · exact K.answer _ _ _ hs
    · exact K.answer _ _ _ (takeList (fun w i _ hw => K.renew w p i hw) _ hs)
    · exact K.answer _ _ _ (K.renewAll s p hs)
  | withdraw p point =>
    unfold exec execWithdraw at h
    refine K.ofRequest hs ?_ h
    split
    · exact K.answer _ _ _ hs
    · split
      · exact K.answer _ _ _ (K.withdraw s p _ ‹_› hs)
      · exact K.answer _ _ _ hs
  | tickAgeing =>
    unfold exec execTickAgeing at h
    exact K.ofEvent hs (K.age s hs) h
  | pointStale i =>
    unfold exec execPointStale at h
    exact K.ofEvent hs (K.age s hs) h
  | claimArbiterTick =>
    unfold exec execClaimArbiterTick at h
    exact K.ofEvent hs (K.arbiterTick s hs) h
  | leaseLapse i =>
    unfold exec execLeaseLapse at h
    exact K.ofEvent hs (K.arbiterTick s hs) h
  | waitExpiry i p =>
    unfold exec execWaitExpiry at h
    exact K.ofEvent hs (K.arbiterTick s hs) h
  | batchCommit p releaseAfter =>
    unfold exec execBatchCommit at h
    refine K.ofRequest hs ?_ h
    split
    · exact K.answer _ _ _ hs
    · split
      · exact K.answer _ _ _ hs
      · exact K.answer _ _ _ (K.writes.commit p _ _ ‹_› hs)
  | orderArm p order =>
    unfold exec execOrderArm at h
    refine K.ofRequest hs ?_ h
    split
    · exact K.answer _ _ _ hs
    · rename_i n _
      split
      · exact K.answer _ _ _ hs
      · split
        · exact K.answer _ _ _ hs
        · split
          · exact K.answer _ _ _ hs
          · split
            · exact K.answer _ _ _ hs
            · exact K.answer _ _ _ (K.same
                (K.grantInternal s (.order n) _ (.inr ⟨n, rfl⟩) (State.firstInternalRefusal_none ‹_›) hs))
  | orderDisarm p order =>
    unfold exec execOrderDisarm at h
    refine K.ofRequest hs ?_ h
    split
    · exact K.answer _ _ _ hs
    · split
      · exact K.answer _ _ _ hs
      · split
        · exact K.answer _ _ _ (K.writes.raise _ _ (K.releaseHeld _ _ nofun (K.same hs)))
        · exact K.answer _ _ _ hs
        · exact K.answer _ _ _ (K.same hs)
  | orderCopy =>
    unfold exec execOrderCopy at h
    refine K.ofEvent hs ?_ h
    split
    · exact hs
    · split
      · exact K.freeExecutor hs
      · exact K.takeCopy _ _ hs
  | scanArm p =>
    unfold exec execScanArm at h
    refine K.ofRequest hs ?_ h
    split
    · exact K.answer _ _ _ hs
    · split
      · exact K.answer _ _ _ hs
      · dsimp only
        split
        · exact K.answer _ _ _ hs
        · exact K.answer _ _ _ (K.same
            (K.grantInternal s .scanner _ (.inl rfl) (State.firstInternalRefusal_none ‹_›) hs))
  | scanDisarm p =>
    unfold exec execScanDisarm at h
    refine K.ofRequest hs ?_ h
    split
    · exact K.answer _ _ _ hs
    · split
      · exact K.answer _ _ _ (K.writes.raise _ _ (K.releaseHeld _ _ nofun (K.same hs)))
      · exact K.answer _ _ _ hs
  | conversionCompletion raw =>
    unfold exec execConversionCompletion at h
    refine K.ofEvent hs ?_ h
    split
    · exact hs
    · split
      · exact hs
      · exact K.writes.raise _ _ (K.nextConversion _ _ (K.writes.scanWrite _ raw hs))
  | portReset p =>
    unfold exec execPortReset at h
    exact K.ofRequest (f := fun s => s.resetOwnPort p) hs (K.portReset s p _ hs) h
  | forcePortReset p target =>
    unfold exec execForcePortReset at h
    refine K.ofRequest hs ?_ h
    split
    · exact K.answer _ _ _ hs
    · split
      · exact K.portReset s p _ hs
      · exact K.answer _ _ _ (K.portReset s _ _ hs)
  | _ =>
    obtain ⟨hp, hc⟩ := exec_leaves_table rfl h
    exact K.congr s t hp hc hs

/-- Every step keeps it. -/
theorem keptByStep (K : KeptByTable Inv) : KeptByStep Inv :=
  keptByStep_of (fun _ _ hs => K.same hs) fun _ _ _ => K.ofExec

end KeptByTable

end Sys2Proof.Machine

namespace Sys2Proof.Machine

/-! ### Properties of each point on its own -/

/-- The operations on one point keep the property. -/
structure KeptByPoint (P : Point → Prop) : Prop where
  write : ∀ pt x q, q = .good ∨ q = .suspect → P pt → P (pt.written (pt.defn.fit x) q)
  define : ∀ args d, pointDef? args = some d → P d.fresh
  reset : ∀ pt, P pt → P pt.afterReset
  release : ∀ pt, P pt → P pt.release
  grant : ∀ pt (c : PortClaim), (pt.holder.party = none ∨ pt.holder.party = some (.port c.port)) →
    pt.defn.rights.hasPort c.port = true → (∀ l ∈ c.lease, l.sound) → P pt → P { pt with holder := .port c }
  wait : ∀ pt w, pt.waiters.length < Config.waitersMax → w.port ∉ pt.waiting → pt.holder ≠ .none →
    pt.holder.party ≠ some (.port w.port) → w.sound → pt.defn.rights.hasPort w.port = true → P pt →
    P { pt with waiters := pt.waiters ++ [w] }
  renew : ∀ pt, P pt → P { pt with holder := pt.holder.restart }
  withdraw : ∀ pt p, P pt → P { pt with waiters := withoutPort p pt.waiters }
  age : ∀ pt, P pt → P pt.aged
  count : ∀ pt, P pt → P pt.counted
  grantInternal : ∀ pt h, (h = .scanner ∨ ∃ n, h = .order n) → pt.defn.rights.internal = true → P pt →
    P { pt with holder := h, waiters := [] }

namespace KeptByPoint

variable {P : Point → Prop}

/-- A change of every slot by an operation that keeps the property keeps it at every point. -/
theorem ofMap {s t : State} {f : Point → Point} (ht : ∀ i, t.slot i = (s.slot i).map f)
    (hf : ∀ i, ∀ pt ∈ s.slot i, P pt → P (f pt)) (hs : s.everyPoint P) : t.everyPoint P := by
  intro i pt hpt
  rw [ht, Option.mem_def, Option.map_eq_some_iff] at hpt
  obtain ⟨pt', hpt', rfl⟩ := hpt
  exact hf i pt' hpt' (hs i pt' hpt')

/-- A change of one slot to a point that has the property, or to none, keeps it at every point. -/
theorem ofSlot {s t : State} {i : PointIx} {x : Option Point} (ht : ∀ j, t.slot j = if j = i then x else s.slot j)
    (hx : ∀ pt ∈ x, P pt) (hs : s.everyPoint P) : t.everyPoint P := by
  intro j pt hpt
  rw [ht] at hpt
  split at hpt
  · exact hx pt hpt
  · exact hs j pt hpt

/-- A change of the slots of a list by an operation that keeps the property keeps it at every point. -/
theorem ofList {s t : State} {f : Point → Point} {l : List PointIx}
    (ht : ∀ j, t.slot j = if j ∈ l then (s.slot j).map f else s.slot j)
    (hf : ∀ i ∈ l, ∀ pt ∈ s.slot i, P pt → P (f pt)) (hs : s.everyPoint P) : t.everyPoint P := by
  intro j pt hpt
  rw [ht] at hpt
  split at hpt
  · obtain ⟨pt', hpt', rfl⟩ := Option.map_eq_some_iff.1 hpt
    exact hf j ‹_› pt' hpt' (hs j pt' hpt')
  · exact hs j pt hpt

/-- A release by one party is a release, or nothing. -/
theorem releaseFrom (K : KeptByPoint P) (pt : Point) (w : Party) (h : P pt) : P (pt.releaseFrom w) := by
  unfold Point.releaseFrom
  split
  · exact K.release pt h
  · exact h

/-- A renewal by one port is a renewal, or nothing. -/
theorem renewFor (K : KeptByPoint P) (pt : Point) (p : Port) (h : P pt) : P (pt.renewFor p) := by
  unfold Point.renewFor
  split
  · exact K.renew pt h
  · exact h

end KeptByPoint

/-- A fresh lease of a 2-byte length lies within its bounds. -/
theorem freshLease_sound {n : Nat} (hn : n ≤ 65535) : ∀ l ∈ freshLease n, l.sound := by
  unfold freshLease
  split
  · nofun
  · rintro l ⟨⟩
    exact ⟨Nat.pos_of_ne_zero ‹_›, Nat.le_refl n, hn⟩

/-- The waiters of a defined slot. -/
theorem State.waitersAt_of_slot {s : State} {i : PointIx} {pt : Point} (h : s.slot i = some pt) :
    s.waitersAt i = pt.waiters := by
  simp [State.waitersAt, h]

/-- A claim that finds an occupied point names a listed point and the other party that holds it (R38). -/
theorem State.firstOccupied_some {s : State} {p : Port} {ixs : List PointIx} {i : PointIx} {w : Party}
    (h : s.firstOccupied p ixs = some (i, w)) :
    i ∈ ixs ∧ ∃ pt, s.slot i = some pt ∧ pt.holder.party = some w ∧ w ≠ .port p := by
  obtain ⟨j, hj, hf⟩ := List.exists_of_findSome?_eq_some h
  cases hpt : s.slot j with
  | none => simp [hpt] at hf
  | some pt =>
    rw [hpt, Option.bind_some] at hf
    split at hf
    · split at hf
      · cases hf
      · cases hf
        exact ⟨hj, pt, hpt, ‹_›, ‹_›⟩
    · cases hf

/-- What a CLAIM past its argument check can do: nothing, place one wait, or grant every point (R37 to R41). -/
theorem State.takeClaim_cases (s : State) (p : Port) (args : ClaimArgs) (mode : ClaimMode) (ixs : List PointIx) :
    (s.takeClaim p args mode ixs).1 = s ∨
    (∃ i pt h w, s.slot i = some pt ∧ pt.holder.party = some h ∧ h ≠ .port p ∧ pt.defn.rights.hasPort p = true ∧
      args.wait = true ∧ w = { port := p, lease := args.lease.toNat, mode := mode, remaining := args.waitLimit.toNat } ∧
      p ∉ pt.waiting ∧ pt.waiters.length < Config.waitersMax ∧ s.counts.get p + 1 ≤ Config.claimLimit ∧
      (s.takeClaim p args mode ixs).1 =
        (s.modifySlot i fun pt => { pt with waiters := pt.waiters ++ [w] }).setCount p (s.counts.get p + 1)) ∨
    ((∀ i ∈ ixs, ∃ pt, s.slot i = some pt ∧ pt.defn.rights.hasPort p = true ∧
        (pt.holder.party = none ∨ pt.holder.party = some (.port p))) ∧
      s.counts.get p + s.freeCount ixs ≤ Config.claimLimit ∧
      (s.takeClaim p args mode ixs).1 = s.grantClaim { port := p, lease := freshLease args.lease.toNat, mode := mode } ixs) := by
  unfold State.takeClaim
  split
  · exact .inl rfl
  · rename_i hright
    split
    · rename_i i h hocc
      obtain ⟨hi, pt, hpt, hparty, hne⟩ := State.firstOccupied_some hocc
      split
      · rename_i hwait
        unfold State.placeWait
        split
        · rename_i j
          obtain rfl : i = j := by simpa using hi
          rw [State.waitersAt_of_slot hpt]
          dsimp only
          split
          · exact .inl rfl
          · rename_i hw
            split
            · exact .inl rfl
            · rename_i hlen
              split
              · exact .inl rfl
              · rename_i hlim
                obtain ⟨pt', hpt', hp⟩ := State.claimBarrier_none hright i hi
                obtain rfl : pt = pt' := by simpa [hpt] using hpt'
                refine .inr (.inl ⟨i, pt, h, _, hpt, hparty, hne, hp, hwait, rfl, ?_, by omega, by omega, rfl⟩)
                simpa [Point.waiting] using hw
        · exact .inl rfl
      · exact .inl rfl
    · rename_i hocc
      split
      · exact .inl rfl
      · rename_i hlim
        refine .inr (.inr ⟨fun i hi => ?_, by omega, rfl⟩)
        obtain ⟨pt, hpt, hp⟩ := State.claimBarrier_none hright i hi
        exact ⟨pt, hpt, hp, State.firstOccupied_none hocc i hi pt hpt⟩

/-- A CLAIM past its argument check keeps the property at every point. -/
theorem KeptByPoint.takeClaim {P : Point → Prop} (K : KeptByPoint P) {s : State} (p : Port) {args : ClaimArgs} (mode : ClaimMode)
    (ixs : List PointIx) (hwait : args.wait = true → args.waitLimit ≠ 0) (hs : s.everyPoint P) :
    (s.takeClaim p args mode ixs).1.everyPoint P := by
  obtain h | ⟨i, pt, h, w, hpt, hparty, hne, hright, hflag, rfl, hnot, hlen, -, h⟩ | ⟨hall, -, h⟩ :=
    s.takeClaim_cases p args mode ixs
  · rw [h]
    exact hs
  · rw [h]
    refine ofSlot (i := i) (x := some { pt with waiters := pt.waiters ++ [⟨p, args.lease.toNat, mode, args.waitLimit.toNat⟩] })
      (fun j => ?_) ?_ hs
    · rw [State.slot_setCount, State.slot_modifySlot, hpt]
      rfl
    · rintro _ ⟨⟩
      refine K.wait pt _ hlen hnot (fun e => ?_) (fun e => ?_) ?_ hright (hs i pt hpt)
      · simp [e, Holder.party] at hparty
      · rw [hparty] at e
        exact hne (Option.some.inj e)
      · have hlimit : args.waitLimit.toNat ≠ 0 := fun e => hwait hflag (BitVec.eq_of_toNat_eq e)
        have := args.waitLimit.isLt
        have := args.lease.isLt
        exact ⟨by simp only; omega, by simp only; omega, by simp only; omega⟩
  · rw [h]
    refine ofList (State.slot_grantClaim s _ ixs) (fun i hi pt hpt hP => ?_) hs
    obtain ⟨pt', hpt', hright, hfree⟩ := hall i hi
    obtain rfl : pt = pt' := Option.some.inj ((Option.mem_def.1 hpt).symm.trans hpt')
    exact K.grant pt _ hfree hright (freshLease_sound (by have := args.lease.isLt; omega)) hP

/-- A property of points that the operations on a point keep is kept by the operations on the table. -/
theorem KeptByPoint.keptByTable {P : Point → Prop} (K : KeptByPoint P) : KeptByTable fun s => s.everyPoint P where
  congr s t hp _ hs i pt hpt := hs i pt (by rwa [← State.slot_congr hp])
  reset i pt hpt := by simp [State.reset, State.slot] at hpt
  store s i pt x q hpt hq hs :=
    ofSlot (State.slot_store s i pt _ q) (by rintro _ ⟨⟩; exact K.write pt x q hq (hs i pt hpt)) hs
  release s p i pt hpt _ hs :=
    ofSlot (State.slot_releasePoint s p i) (by rw [hpt]; rintro _ ⟨⟩; exact K.release pt (hs i pt hpt)) hs
  define s i args d hd _ hs := ofSlot (State.slot_replaceSlot s i _) (by rintro _ ⟨⟩; exact K.define args d hd) hs
  undefine s i _ hs := ofSlot (State.slot_replaceSlot s i none) (fun _ e => nomatch e) hs
  tableReset s hs := ofMap (State.slot_tableReset s) (fun _ pt _ => K.reset pt) hs
  claim s p args mode ixs _ hwait hs := K.takeClaim p mode ixs hwait hs
  releaseAll s p hs := by
    refine ofMap (s := s) (f := fun pt => pt.releaseFrom (.port p)) (fun i => ?_) (fun _ pt _ => K.releaseFrom pt _) hs
    unfold State.releaseAll State.releaseHeld
    simp
  renew s p i hs := by
    refine ofSlot (State.slot_modifySlot s i · _) (fun pt hpt => ?_) hs
    obtain ⟨pt', hpt', rfl⟩ := Option.map_eq_some_iff.1 hpt
    exact K.renewFor pt' p (hs i pt' hpt')
  renewAll s p hs := ofMap (State.slot_mapPoints s _) (fun _ pt _ => K.renewFor pt p) hs
  withdraw s p i _ hs := by
    refine ofSlot (State.slot_modifySlot s i · _) (fun pt hpt => ?_) hs
    obtain ⟨pt', hpt', rfl⟩ := Option.map_eq_some_iff.1 hpt
    exact K.withdraw pt' p (hs i pt' hpt')
  age s hs := ofMap (State.slot_ageTable s) (fun _ pt _ => K.age pt) hs
  arbiterTick s hs := ofMap (State.slot_arbiterTick s) (fun _ pt _ => K.count pt) hs
  releaseHeld s w _ hs := ofMap (State.slot_mapPoints s _) (fun _ pt _ => K.releaseFrom pt w) hs
  grantInternal s h l hh hfree hs := by
    refine ofList (State.slot_grantInternal s h l) (fun i hi pt hpt => ?_) hs
    obtain ⟨pt', hpt', hright, -⟩ := hfree i hi
    obtain rfl : pt = pt' := Option.some.inj ((Option.mem_def.1 hpt).symm.trans hpt')
    exact K.grantInternal pt h hh hright
  portReset s p w hs :=
    ofMap (State.slot_portReset s p w) (fun _ pt _ hP => K.releaseFrom _ _ (K.withdraw pt p hP)) hs

end Sys2Proof.Machine

namespace Sys2Proof.Machine

/-! ### Numbers within the limits (R2, R3, R19) -/

/-- The least and the greatest number that 32 bits are at a point of this kind. -/
theorem Kind.num_bounds (k : Kind) (v : Word) :
    match k with
    | .s32 => -2147483648 ≤ k.num v ∧ k.num v < 2147483648
    | _ => 0 ≤ k.num v ∧ k.num v < 4294967296 := by
  have hn := v.isLt
  have hl := v.le_toInt
  have hu := v.toInt_lt
  cases k <;> simp only [Kind.num] <;> omega

/-- The bits of the number that some bits are, are those bits. -/
theorem Kind.ofInt_num (k : Kind) (v : Word) : BitVec.ofInt 32 (k.num v) = v := by
  cases k <;> simp [Kind.num]

/-- A number between two numbers of a kind is the number of its own 32 bits. -/
theorem Kind.num_ofInt (k : Kind) {a b : Word} {x : Int} (ha : k.num a ≤ x) (hb : x ≤ k.num b) :
    k.num (BitVec.ofInt 32 x) = x := by
  have hlow := k.num_bounds a
  have hhigh := k.num_bounds b
  cases k with
  | s32 =>
    simp only [Kind.num, BitVec.toInt_ofInt] at *
    rw [Int.bmod_eq_of_le] <;> omega
  | u32 =>
    simp only [Kind.num, BitVec.toNat_ofInt] at *
    omega
  | bool =>
    simp only [Kind.num, BitVec.toNat_ofInt] at *
    omega

namespace PointDef

theorem inRange_iff (d : PointDef) (x : Int) : d.inRange x = true ↔ d.lowNum ≤ x ∧ x ≤ d.highNum := by
  simp [inRange]

theorem rejects_iff (d : PointDef) (x : Int) :
    d.rejects x = true ↔ d.limitAction = .reject ∧ (x < d.lowNum ∨ d.highNum < x) := by
  simp only [rejects, Bool.and_eq_true, Bool.not_eq_true', Bool.eq_false_iff, Ne, inRange_iff, decide_eq_true_eq]
  constructor
  · rintro ⟨hout, hact⟩
    exact ⟨hact, by omega⟩
  · rintro ⟨hact, hout⟩
    exact ⟨by omega, hact⟩

/-- Below the limits the lower limit is stored. -/
theorem fit_below {d : PointDef} {x : Int} (h : x < d.lowNum) : d.fit x = d.low := if_pos h

/-- Above the limits the upper limit is stored. -/
theorem fit_above {d : PointDef} {x : Int} (hd : d.lowNum ≤ d.highNum) (h : d.highNum < x) : d.fit x = d.high := by
  unfold fit
  rw [if_neg (by omega), if_pos h]

/-- Within the limits the number's own bits are stored. -/
theorem fit_inRange {d : PointDef} {x : Int} (h : d.inRange x = true) : d.fit x = BitVec.ofInt 32 x := by
  rw [inRange_iff] at h
  unfold fit
  rw [if_neg (by omega), if_neg (by omega)]

/-- Within the limits what is stored is the number. -/
theorem num_fit {d : PointDef} {x : Int} (h : d.inRange x = true) : d.kind.num (d.fit x) = x := by
  rw [fit_inRange h]
  rw [inRange_iff] at h
  exact d.kind.num_ofInt h.1 h.2

/-- What is stored always lies within the limits. -/
theorem inRange_fit {d : PointDef} (hd : d.lowNum ≤ d.highNum) (x : Int) : d.inRange (d.kind.num (d.fit x)) = true := by
  rcases Int.lt_or_le x d.lowNum with hlow | hlow
  · rw [fit_below hlow, inRange_iff]
    exact ⟨Int.le_refl _, hd⟩
  · rcases Int.lt_or_le d.highNum x with hhigh | hhigh
    · rw [fit_above hd hhigh, inRange_iff]
      exact ⟨hd, Int.le_refl _⟩
    · have hx := (d.inRange_iff x).2 ⟨hlow, hhigh⟩
      rwa [num_fit hx]

end PointDef

/-- Settles O18: the three kinds read back the bits they were given, and the limits are compared as numbers. -/
theorem limitsAreAppliedByKind : Obligations.LimitsAreAppliedByKind := by
  refine ⟨fun d v h => ?_, fun _ _ => PointDef.fit_below, fun _ _ => PointDef.fit_above, fun _ _ => PointDef.num_fit,
    fun d x => ⟨d.inRange_iff x, rfl, rfl⟩, PointDef.rejects_iff, fun _ => ⟨rfl, rfl, rfl⟩⟩
  rw [PointDef.fit_inRange h, Kind.ofInt_num]

/-! ### Definitions (R9) -/

/-- The definition that a DEFINE body spells, before the checks: a BOOL point has the limits 0 and 1 (R9). -/
def PointDef.spelledBy (args : DefineArgs) (kind : Kind) (action : LimitAction) : PointDef :=
  { kind, default := args.default, low := if kind = .bool then 0 else args.low, high := if kind = .bool then 1 else args.high,
    limitAction := action, maxAge := args.maxAge.toNat, rights := rightsOf args.rights }

/-- The checks of a definition whose codes are good: its rights are not empty, its limits are in order, and its default lies
within them (R9). -/
def PointDef.passes (d : PointDef) : Bool := !d.rights.isEmpty && d.lowNum ≤ d.highNum && d.inRange (d.kind.num d.default)

theorem PointDef.passes_iff (d : PointDef) :
    d.passes = true ↔ d.rights.isEmpty = false ∧ d.lowNum ≤ d.highNum ∧ d.inRange (d.kind.num d.default) = true := by
  simp [passes, and_assoc]

/-- A body whose codes are good gives the definition it spells, if that passes. -/
theorem pointDef?_of_codes {args : DefineArgs} {kind : Kind} {action : LimitAction} (hk : kind? args.kind = some kind)
    (ha : limitAction? args.limitAction = some action) :
    pointDef? args =
      if (PointDef.spelledBy args kind action).passes then some (PointDef.spelledBy args kind action) else none := by
  unfold pointDef?
  rw [hk, ha]
  rfl

/-- DEFINE accepts a body exactly when its codes name a kind and a limit action, the rights are not empty, and the limits are
in order and take in the default (R9, checks 2 to 4). -/
theorem pointDef?_eq_some_iff (args : DefineArgs) (d : PointDef) :
    pointDef? args = some d ↔
      kind? args.kind = some d.kind ∧ limitAction? args.limitAction = some d.limitAction ∧
        d = PointDef.spelledBy args d.kind d.limitAction ∧ d.passes = true := by
  constructor
  · intro h
    cases hk : kind? args.kind with
    | none => simp [pointDef?, hk] at h
    | some kind =>
      cases ha : limitAction? args.limitAction with
      | none => simp [pointDef?, hk, ha] at h
      | some action =>
        rw [pointDef?_of_codes hk ha] at h
        split at h
        · cases h
          exact ⟨rfl, rfl, rfl, ‹_›⟩
        · cases h
  · rintro ⟨hk, ha, heq, hpass⟩
    rw [pointDef?_of_codes hk ha, ← heq, if_pos hpass]

/-- A definition that DEFINE accepts is sound (R3, R9). -/
theorem pointDef?_sound {args : DefineArgs} {d : PointDef} (h : pointDef? args = some d) : d.sound := by
  obtain ⟨-, -, heq, hpass⟩ := (pointDef?_eq_some_iff args d).1 h
  obtain ⟨hrights, hlimits, hdefault⟩ := d.passes_iff.1 hpass
  refine ⟨hlimits, hdefault, fun hbool => ?_, hrights, ?_⟩
  · rw [heq, hbool]
    exact ⟨rfl, rfl⟩
  · rw [heq]
    have := args.maxAge.isLt
    show args.maxAge.toNat ≤ 65535
    omega

/-! ### Values (R3 to R5) -/

/-- The soundness of a value reads the definition, the value, the quality and the sequence alone. -/
theorem Point.valueSound_of_eq {pt pt' : Point} (h : pt.valueSound) (hd : pt'.defn = pt.defn := by rfl)
    (hv : pt'.value = pt.value := by rfl) (hq : pt'.quality = pt.quality := by rfl) (hs : pt'.seq = pt.seq := by rfl) :
    pt'.valueSound := by
  unfold Point.valueSound
  rw [hd, hv, hq, hs]
  exact h

/-- A point as a sound definition leaves it has a sound value (R10). -/
theorem PointDef.fresh_valueSound {d : PointDef} (h : d.sound) : d.fresh.valueSound :=
  ⟨h, h.2.1, fun _ => ⟨rfl, rfl⟩⟩

/-- A release changes the holder and the waiters alone. -/
theorem Point.release_eq (pt : Point) : pt.release = { pt with holder := pt.release.holder, waiters := pt.release.waiters } := by
  unfold Point.release
  split <;> rfl

/-- A tick changes the age and the quality alone, and leaves an UNSET point as it is (R96, R97). -/
theorem Point.aged_eq (pt : Point) : pt.aged = { pt with age := pt.aged.age, quality := pt.aged.quality } := by
  unfold Point.aged
  split <;> rfl

theorem Point.unset_of_aged {pt : Point} (h : pt.aged.quality = .unset) : pt.quality = .unset := by
  unfold Point.aged at h
  split at h
  · dsimp only at h
    split at h
    · cases h
    · exact h
  · exact h

/-- A tick of the claim arbiter changes the holder and the waiters alone (R50, R51). -/
theorem Point.counted_eq (pt : Point) : pt.counted = { pt with holder := pt.counted.holder, waiters := pt.counted.waiters } := by
  unfold Point.counted Point.afterLeases
  dsimp only
  split
  · rw [Point.release_eq]
  · rfl

/-- The operations on a point keep its value sound. -/
theorem valueSound_kept : KeptByPoint Point.valueSound where
  write pt x q hq h := by
    refine ⟨h.1, PointDef.inRange_fit h.1.1 x, fun hunset => ?_⟩
    replace hunset : q = .unset := hunset
    rcases hq with rfl | rfl <;> cases hunset
  define _ _ hd := PointDef.fresh_valueSound (pointDef?_sound hd)
  reset _ h := PointDef.fresh_valueSound h.1
  release pt h := by
    rw [Point.release_eq]
    exact Point.valueSound_of_eq h
  grant _ _ _ _ _ h := Point.valueSound_of_eq h
  wait _ _ _ _ _ _ _ _ h := Point.valueSound_of_eq h
  renew _ h := Point.valueSound_of_eq h
  withdraw _ _ h := Point.valueSound_of_eq h
  age pt h := by
    obtain ⟨hdefn, hrange, hunset⟩ := h
    rw [Point.aged_eq]
    exact ⟨hdefn, hrange, fun e => hunset (Point.unset_of_aged e)⟩
  count pt h := by
    rw [Point.counted_eq]
    exact Point.valueSound_of_eq h
  grantInternal _ _ _ _ h := Point.valueSound_of_eq h

/-- Settles O6: every operation on a point keeps its value within its limits, so every step does. -/
theorem valuesStayWithinLimits : Obligations.ValuesStayWithinLimits := valueSound_kept.keptByTable.keptByStep

end Sys2Proof.Machine

namespace Sys2Proof.Machine

/-! ### Claim records (R7, R33, R45, R46) -/

/-- A point has a holder exactly when some party is its holder. -/
theorem Holder.party_eq_none {h : Holder} : h.party = Option.none ↔ h = .none := by
  cases h <;> simp [Holder.party]

/-- The holder with its lease changed; only a port has one (R32). -/
def Holder.mapLease (f : Lease → Lease) : Holder → Holder
  | .port c => .port { c with lease := c.lease.map f }
  | h => h

theorem Holder.restart_eq (h : Holder) : h.restart = h.mapLease fun l => { l with remaining := l.length } := by
  cases h <;> rfl

theorem Holder.countDown_eq (h : Holder) : h.countDown = h.mapLease fun l => { l with remaining := l.remaining - 1 } := by
  cases h <;> rfl

/-- A change of the lease does not change who holds. -/
theorem Holder.party_mapLease (f : Lease → Lease) (h : Holder) : (h.mapLease f).party = h.party := by cases h <;> rfl

/-- A holder stays within the rights when its lease, if any, stays within its bounds. -/
theorem Point.holderAdmitted_mapLease {pt : Point} {f : Lease → Lease} (hpt : pt.holderAdmitted)
    (hf : ∀ c, pt.holder = .port c → ∀ l ∈ c.lease, l.sound → (f l).sound) :
    Point.holderAdmitted { pt with holder := pt.holder.mapLease f } := by
  unfold Point.holderAdmitted at hpt ⊢
  cases hh : pt.holder with
  | none => trivial
  | port c =>
    rw [hh] at hpt
    refine ⟨hpt.1, fun l hl => ?_⟩
    obtain ⟨l', hl', rfl⟩ := Option.map_eq_some_iff.1 hl
    exact hf c hh l' hl' (hpt.2 l' hl')
  | scanner =>
    rw [hh] at hpt
    exact hpt
  | order n =>
    rw [hh] at hpt
    exact hpt

/-- A claim record stays sound when its holder is replaced by one that is the same party and within the rights. -/
theorem Point.claimSound_setHolder {pt : Point} {h : Holder} (hpt : pt.claimSound) (hp : h.party = pt.holder.party)
    (ha : Point.holderAdmitted { pt with holder := h }) : Point.claimSound { pt with holder := h } := by
  obtain ⟨hlen, hnodup, hother, hfree, -, hwaits⟩ := hpt
  refine ⟨hlen, hnodup, fun p hm => ?_, fun e => hfree ?_, ha, hwaits⟩
  · rw [hp]
    exact hother p hm
  · rw [← Holder.party_eq_none, ← hp, Holder.party_eq_none]
    exact e

/-- A claim record stays sound when its waits become fewer, and each that stays is sound and within the rights. -/
theorem Point.claimSound_setWaiters {pt : Point} {ws : List Wait} (hpt : pt.claimSound)
    (hsub : (ws.map Wait.port).Sublist pt.waiting) (hws : ∀ w ∈ ws, w.sound ∧ pt.defn.rights.hasPort w.port = true) :
    Point.claimSound { pt with waiters := ws } := by
  obtain ⟨hlen, hnodup, hother, hfree, hadm, -⟩ := hpt
  have hle := hsub.length_le
  rw [Point.waiting, List.length_map, List.length_map] at hle
  refine ⟨Nat.le_trans hle hlen, hsub.nodup hnodup, fun p hm => hother p (hsub.subset hm), fun e => ?_, hadm, hws⟩
  rw [hfree e, List.length_nil, Nat.le_zero, List.length_eq_zero_iff] at hle
  exact hle

/-- A handover keeps the claim record sound: the heir comes from the waiter list and its lease is fresh (R46). -/
theorem Point.claimSound_release {pt : Point} (hpt : pt.claimSound) : pt.release.claimSound := by
  obtain ⟨hlen, hnodup, hother, hfree, hadm, hwaits⟩ := hpt
  unfold Point.release
  cases hws : pt.waiters with
  | nil =>
    exact ⟨by simp, by simp [Point.waiting], nofun, fun _ => rfl, trivial, by simp⟩
  | cons w rest =>
    rw [hws] at hlen hwaits
    rw [Point.waiting, hws, List.map_cons, List.nodup_cons] at hnodup
    obtain ⟨hsound, hright⟩ := hwaits w (List.mem_cons_self ..)
    refine ⟨Nat.le_of_succ_le hlen, hnodup.2, fun p hm e => ?_, nofun, ⟨hright, freshLease_sound hsound.2.2⟩,
      fun v hv => hwaits v (List.mem_cons_of_mem _ hv)⟩
    have hport : w.port = p := Party.port.inj (Option.some.inj e)
    exact hnodup.1 (hport ▸ hm)

/-- A renewal keeps the claim record sound: the lease starts again at its length (R33). -/
theorem Point.claimSound_restart {pt : Point} (hpt : pt.claimSound) :
    Point.claimSound { pt with holder := pt.holder.restart } := by
  obtain ⟨-, -, -, -, hadm, -⟩ := id hpt
  rw [Holder.restart_eq]
  refine Point.claimSound_setHolder hpt (Holder.party_mapLease _ _) (Point.holderAdmitted_mapLease hadm ?_)
  rintro - - l - ⟨hpos, hle, hbound⟩
  exact ⟨Nat.le_trans hpos hle, Nat.le_refl _, hbound⟩

/-- The lease part of a tick hands a lapsed claim over and counts another down. -/
theorem Point.claimSound_afterLeases {pt : Point} (hpt : pt.claimSound) : pt.afterLeases.claimSound := by
  unfold Point.afterLeases
  split
  · exact Point.claimSound_release hpt
  · rename_i hlapse
    obtain ⟨-, -, -, -, hadm, -⟩ := id hpt
    rw [Holder.countDown_eq]
    refine Point.claimSound_setHolder hpt (Holder.party_mapLease _ _) (Point.holderAdmitted_mapLease hadm ?_)
    intro c hc l hl ⟨hpos, hle, hbound⟩
    have hmore : 1 < l.remaining := by simpa [Point.lapsing, hc, Option.mem_def.1 hl, Lease.lapses] using hlapse
    exact ⟨Nat.le_sub_one_of_lt hmore, Nat.le_trans (Nat.sub_le ..) hle, hbound⟩

/-- The waits that stay after a tick are those that do not expire, each with one tick less. -/
theorem Point.counted_waiters (pt : Point) :
    pt.counted.waiters = (pt.afterLeases.waiters.filter fun w => !w.expires).map Wait.countDown := rfl

/-- Counting waits down does not change whose they are. -/
theorem map_port_countDown (ws : List Wait) : (ws.map Wait.countDown).map Wait.port = ws.map Wait.port := by
  rw [List.map_map]
  rfl

/-- A tick keeps the claim record sound (R50, R51). -/
theorem Point.claimSound_counted {pt : Point} (hpt : pt.claimSound) : pt.counted.claimSound := by
  have h := Point.claimSound_afterLeases hpt
  refine Point.claimSound_setWaiters (pt := pt.afterLeases) h ?_ ?_
  · rw [map_port_countDown]
    exact List.filter_sublist.map _
  · obtain ⟨-, -, -, -, -, hwaits⟩ := h
    intro w hw
    obtain ⟨v, hv, rfl⟩ := List.mem_map.1 hw
    obtain ⟨hmem, hstays⟩ := List.mem_filter.1 hv
    obtain ⟨⟨hpos, hle, hlease⟩, hright⟩ := hwaits v hmem
    have hmore : 1 < v.remaining := by simpa [Wait.expires] using hstays
    exact ⟨⟨by simp only [Wait.countDown]; omega, by simp only [Wait.countDown]; omega, hlease⟩, hright⟩

/-- A withdrawal keeps the claim record sound (R44). -/
theorem Point.claimSound_withoutPort {pt : Point} (hpt : pt.claimSound) (p : Port) :
    Point.claimSound { pt with waiters := withoutPort p pt.waiters } := by
  refine Point.claimSound_setWaiters hpt (List.filter_sublist.map _) fun w hw => ?_
  obtain ⟨-, -, -, -, -, hwaits⟩ := hpt
  exact hwaits w (List.mem_filter.1 hw).1

/-- A new wait keeps the claim record sound: the port is neither the holder nor on the list, and the list has room (R39). -/
theorem Point.claimSound_wait {pt : Point} {w : Wait} (hroom : pt.waiters.length < Config.waitersMax)
    (hnew : w.port ∉ pt.waiting) (hheld : pt.holder ≠ .none) (hother : pt.holder.party ≠ some (.port w.port)) (hw : w.sound)
    (hright : pt.defn.rights.hasPort w.port = true) (hpt : pt.claimSound) :
    Point.claimSound { pt with waiters := pt.waiters ++ [w] } := by
  obtain ⟨-, hnodup, hothers, -, hadm, hwaits⟩ := hpt
  refine ⟨?_, ?_, fun p hm => ?_, fun e => absurd e hheld, hadm, fun v hv => ?_⟩
  · rw [List.length_append]
    exact hroom
  · show ((pt.waiters ++ [w]).map Wait.port).Nodup
    rw [List.map_append, List.nodup_append]
    refine ⟨hnodup, List.nodup_cons.2 ⟨List.not_mem_nil, List.nodup_nil⟩, fun q hq r hr e => hnew ?_⟩
    obtain rfl : r = w.port := by simpa using hr
    exact e ▸ hq
  · replace hm : p ∈ (pt.waiters ++ [w]).map Wait.port := hm
    rw [List.map_append, List.mem_append] at hm
    rcases hm with hm | hm
    · exact hothers p hm
    · obtain rfl : p = w.port := by simpa using hm
      exact hother
  · rcases List.mem_append.1 hv with hv | hv
    · exact hwaits v hv
    · obtain rfl : v = w := by simpa using hv
      exact ⟨hw, hright⟩

/-- A grant keeps the claim record sound: the point was free or the port's own (R40, R41). -/
theorem Point.claimSound_grant {pt : Point} {c : PortClaim}
    (hfree : pt.holder.party = none ∨ pt.holder.party = some (.port c.port)) (hright : pt.defn.rights.hasPort c.port = true)
    (hlease : ∀ l ∈ c.lease, l.sound) (hpt : pt.claimSound) : Point.claimSound { pt with holder := .port c } := by
  rcases hfree with hfree | hown
  · obtain ⟨-, -, -, hempty, -, -⟩ := hpt
    have hw := hempty (Holder.party_eq_none.1 hfree)
    exact ⟨by simp [hw], by simp [Point.waiting, hw], by simp [Point.waiting, hw], nofun, ⟨hright, hlease⟩, by simp [hw]⟩
  · exact Point.claimSound_setHolder hpt hown.symm ⟨hright, hlease⟩

/-- A definition leaves a sound claim record: free, with no waiter. -/
theorem PointDef.fresh_claimSound (d : PointDef) : d.fresh.claimSound :=
  ⟨Nat.zero_le _, List.nodup_nil, nofun, fun _ => rfl, trivial, nofun⟩

/-- The operations on a point keep its claim record sound. -/
theorem claimSound_kept : KeptByPoint Point.claimSound where
  write pt _ _ _ h := Point.claimSound_restart h
  define _ d _ := d.fresh_claimSound
  reset pt _ := pt.defn.fresh_claimSound
  release _ h := Point.claimSound_release h
  grant _ _ hfree hright hlease h := Point.claimSound_grant hfree hright hlease h
  wait _ _ hroom hnew hheld hother hw hright h := Point.claimSound_wait hroom hnew hheld hother hw hright h
  renew _ h := Point.claimSound_restart h
  withdraw _ p h := Point.claimSound_withoutPort h p
  age pt h := by
    rw [Point.aged_eq]
    exact h
  count _ h := Point.claimSound_counted h
  grantInternal pt h hh hright _ := by
    refine ⟨Nat.zero_le _, List.nodup_nil, nofun, fun _ => rfl, ?_, nofun⟩
    rcases hh with rfl | ⟨n, rfl⟩
    · exact hright
    · exact hright

end Sys2Proof.Machine

namespace Sys2Proof.Machine

/-! ### Sums over the slots -/

/-- The sum of a quantity over the elements of a list. -/
def total {α : Type} (f : α → Nat) : List α → Nat
  | [] => 0
  | x :: xs => f x + total f xs

theorem total_congr {α : Type} {f g : α → Nat} (l : List α) (h : ∀ x, f x = g x) : total f l = total g l :=
  congrArg (fun f => total f l) (funext h)

theorem total_add {α : Type} (f g : α → Nat) (l : List α) : total (fun x => f x + g x) l = total f l + total g l := by
  induction l with
  | nil => rfl
  | cons x xs ih =>
    simp only [total, ih]
    omega

theorem total_zero {α : Type} (l : List α) : total (fun _ => 0) l = 0 := by
  induction l with
  | nil => rfl
  | cons x xs ih => simp only [total, ih]

/-- A quantity that is 0 but at one element of a list without repeats. -/
theorem total_single {α : Type} [DecidableEq α] {l : List α} (h : l.Nodup) (a : α) (n : Nat) :
    total (fun x => if x = a then n else 0) l = if a ∈ l then n else 0 := by
  induction l with
  | nil => rfl
  | cons x xs ih =>
    rw [List.nodup_cons] at h
    simp only [total, ih h.2, List.mem_cons]
    by_cases hx : a = x
    · subst hx
      simp only [h.1, true_or, if_true, if_false, Nat.add_zero]
    · simp only [hx, Ne.symm hx, false_or, if_false, Nat.zero_add]

/-- A number of elements is a sum of ones. -/
theorem countP_eq_total {α : Type} (p : α → Bool) (l : List α) : l.countP p = total (fun x => if p x then 1 else 0) l := by
  induction l with
  | nil => rfl
  | cons x xs ih =>
    rw [List.countP_cons, total, ih]
    omega

theorem total_map {α β : Type} (f : β → Nat) (g : α → β) (l : List α) : total f (l.map g) = total (fun x => f (g x)) l := by
  induction l with
  | nil => rfl
  | cons x xs ih => simp only [List.map_cons, total, ih]

/-- The sum of a quantity over all slots. -/
def sumSlots (f : PointIx → Nat) : Nat := total f (List.finRange 512)

theorem sumSlots_congr {f g : PointIx → Nat} (h : ∀ i, f i = g i) : sumSlots f = sumSlots g := total_congr _ h

theorem sumSlots_add (f g : PointIx → Nat) : (sumSlots fun i => f i + g i) = sumSlots f + sumSlots g := total_add f g _

theorem sumSlots_zero : (sumSlots fun _ => 0) = 0 := total_zero _

/-- A quantity that is 0 but at one slot. -/
theorem sumSlots_single (j : PointIx) (n : Nat) : (sumSlots fun i => if i = j then n else 0) = n :=
  (total_single (List.nodup_finRange 512) j n).trans (if_pos (List.mem_finRange j))

/-- The slots that a list without repeats names and that have a property, counted slot by slot. -/
theorem countP_nodup {ixs : List PointIx} (h : ixs.Nodup) (f : PointIx → Bool) :
    ixs.countP f = sumSlots fun i => if i ∈ ixs ∧ f i = true then 1 else 0 := by
  induction ixs with
  | nil =>
    simp only [List.countP_nil, List.not_mem_nil, false_and, if_false]
    exact sumSlots_zero.symm
  | cons j ixs ih =>
    rw [List.nodup_cons] at h
    have hsplit : ∀ i, (if i ∈ j :: ixs ∧ f i = true then 1 else 0) =
        (if i ∈ ixs ∧ f i = true then 1 else 0) + if i = j then (if f j = true then 1 else 0) else 0 := fun i => by
      by_cases hi : i = j
      · subst hi
        simp only [List.mem_cons, true_or, true_and, h.1, false_and, if_false, if_true, Nat.zero_add]
      · simp only [List.mem_cons, hi, false_or, if_false, Nat.add_zero]
    rw [List.countP_cons, ih h.2, sumSlots_congr hsplit, sumSlots_add, sumSlots_single]

/-- The number of points with a property, counted slot by slot. -/
theorem State.countP_points (s : State) (f : Point → Bool) :
    (s.points.toList.countP fun x => x.any f) = sumSlots fun i => if (s.slot i).any f then 1 else 0 := by
  have hlist : s.points.toList = (List.finRange 512).map s.slot := by
    apply List.ext_getElem
    · rw [Vector.length_toList, List.length_map, List.length_finRange]
    · intro k hk hk'
      rw [Vector.getElem_toList, List.getElem_map, List.getElem_finRange]
      rfl
  rw [countP_eq_total, hlist, total_map]
  rfl

/-! ### A port's claims, point by point (R35) -/

/-- The claims of a port at one point: 1 while it holds the point, and 1 while it waits on it. -/
def Point.claimsOf (pt : Point) (p : Port) : Nat :=
  (if pt.heldBy (.port p) then 1 else 0) + if p ∈ pt.waiting then 1 else 0

/-- The claims of a port at one slot. -/
def State.claimsAt (s : State) (p : Port) (i : PointIx) : Nat := ((s.slot i).map fun pt => pt.claimsOf p).getD 0

theorem State.claimsAt_of_slot {s : State} {i : PointIx} {pt : Point} (h : s.slot i = some pt) (p : Port) :
    s.claimsAt p i = pt.claimsOf p := by
  simp [State.claimsAt, h]

theorem State.claimsAt_of_none {s : State} {i : PointIx} (h : s.slot i = none) (p : Port) : s.claimsAt p i = 0 := by
  simp [State.claimsAt, h]

/-- The claims at a point depend on its holder's party and its waiters alone. -/
theorem Point.claimsOf_congr {pt pt' : Point} (hh : pt'.holder.party = pt.holder.party) (hw : pt'.waiting = pt.waiting) (p : Port) :
    pt'.claimsOf p = pt.claimsOf p := by
  simp [Point.claimsOf, Point.heldBy, hh, hw]

/-- A free point with a sound record has no claim. -/
theorem Point.claimsOf_free {pt : Point} (hpt : pt.claimSound) (hfree : pt.holder.party = none) (p : Port) :
    pt.claimsOf p = 0 := by
  obtain ⟨-, -, -, hempty, -, -⟩ := hpt
  have hw := hempty (Holder.party_eq_none.1 hfree)
  simp [Point.claimsOf, Point.heldBy, Point.waiting, hfree, hw]

/-- A port's points held plus its waits placed are its claims at all slots. -/
theorem State.heldCount_add_waitCount (s : State) (p : Port) :
    s.heldCount (.port p) + s.waitCount p = sumSlots (s.claimsAt p) := by
  unfold State.heldCount State.waitCount
  rw [State.countP_points, State.countP_points, ← sumSlots_add]
  refine sumSlots_congr fun i => ?_
  cases h : s.slot i with
  | none => simp [State.claimsAt_of_none h]
  | some pt => simp [State.claimsAt_of_slot h, Point.claimsOf, Point.waiting]

/-- The counts are sound when each is the sum of its port's claims and within the limit. -/
theorem State.countsSound_iff (s : State) :
    s.CountsSound ↔ ∀ p, s.counts.get p = sumSlots (s.claimsAt p) ∧ s.counts.get p ≤ Config.claimLimit := by
  simp only [State.CountsSound, State.heldCount_add_waitCount]

/-- The counts stay sound when each falls by the claims that its port loses. -/
theorem State.CountsSound.lose {s t : State} (hs : s.CountsSound) (lost : Port → PointIx → Nat)
    (hpoints : ∀ p i, t.claimsAt p i + lost p i = s.claimsAt p i)
    (hcounts : ∀ p, t.counts.get p = s.counts.get p - sumSlots (lost p)) : t.CountsSound := by
  rw [State.countsSound_iff] at hs ⊢
  intro p
  obtain ⟨hsum, hlimit⟩ := hs p
  have htotal : sumSlots (t.claimsAt p) + sumSlots (lost p) = sumSlots (s.claimsAt p) := by
    rw [← sumSlots_add]
    exact sumSlots_congr (hpoints p)
  rw [hcounts]
  exact ⟨by omega, by omega⟩

/-- The counts stay sound when no port's claims change. -/
theorem State.CountsSound.same {s t : State} (hs : s.CountsSound) (hpoints : ∀ p i, t.claimsAt p i = s.claimsAt p i)
    (hcounts : t.counts = s.counts) : t.CountsSound :=
  hs.lose (fun _ _ => 0) hpoints fun p => by rw [hcounts, sumSlots_zero, Nat.sub_zero]

/-- The counts stay sound when each rises by the claims that its port gains, within the limit. -/
theorem State.CountsSound.gain {s t : State} (hs : s.CountsSound) (gained : Port → PointIx → Nat)
    (hpoints : ∀ p i, t.claimsAt p i = s.claimsAt p i + gained p i)
    (hcounts : ∀ p, t.counts.get p = s.counts.get p + sumSlots (gained p)) (hlimit : ∀ p, t.counts.get p ≤ Config.claimLimit) :
    t.CountsSound := by
  rw [State.countsSound_iff] at hs ⊢
  intro p
  refine ⟨?_, hlimit p⟩
  rw [hcounts, (hs p).1, ← sumSlots_add]
  exact sumSlots_congr fun i => (hpoints p i).symm

/-- The counts are sound when they are 0 and no port has a claim. -/
theorem State.countsSound_zero {t : State} (hpoints : ∀ p i, t.claimsAt p i = 0) (hcounts : ∀ p, t.counts.get p = 0) :
    t.CountsSound := by
  rw [State.countsSound_iff]
  intro p
  rw [hcounts, sumSlots_congr (hpoints p), sumSlots_zero]
  exact ⟨rfl, Nat.zero_le _⟩

/-! ### What the operations on a point do to its claims -/

theorem Holder.party_port (c : PortClaim) : (Holder.port c).party = some (.port c.port) := rfl

/-- A handover takes one claim from the holder and none from any other port: the heir's wait becomes its claim (R35, R46). -/
theorem Point.claimsOf_release {pt : Point} (hpt : pt.claimSound) (p : Port) :
    pt.release.claimsOf p + (if pt.heldBy (.port p) then 1 else 0) = pt.claimsOf p := by
  obtain ⟨-, hnodup, hother, -, -, -⟩ := hpt
  unfold Point.release
  cases hws : pt.waiters with
  | nil => simp [Point.claimsOf, Point.heldBy, Point.waiting, Holder.party, hws]
  | cons w rest =>
    rw [Point.waiting, hws, List.map_cons, List.nodup_cons] at hnodup
    by_cases hp : w.port = p
    · have hrest : p ∉ rest.map Wait.port := hp ▸ hnodup.1
      have hheld : pt.holder.party ≠ some (.port p) := hother p (by simp [Point.waiting, hws, hp])
      simp only [List.mem_map, not_exists, not_and] at hrest
      simpa [Point.claimsOf, Point.heldBy, Point.waiting, Wait.claim, hws, hp, hheld, Holder.party_port] using hrest
    · simp [Point.claimsOf, Point.heldBy, Point.waiting, Wait.claim, hws, hp, Ne.symm hp, Holder.party_port, Nat.add_comm]

/-- A release by one party takes one claim from it and none from any other. -/
theorem Point.claimsOf_releaseFrom {pt : Point} (hpt : pt.claimSound) (w : Party) (p : Port) :
    (pt.releaseFrom w).claimsOf p + (if w = .port p ∧ pt.heldBy w then 1 else 0) = pt.claimsOf p := by
  unfold Point.releaseFrom
  by_cases hw : pt.heldBy w = true
  · rw [if_pos hw, ← Point.claimsOf_release hpt p]
    have hiff : (w = .port p ∧ pt.heldBy w = true) ↔ pt.heldBy (.port p) = true := by
      simp only [Point.heldBy, decide_eq_true_eq] at hw ⊢
      rw [hw, Option.some.injEq]
      simp
    simp only [hiff]
  · simp [hw]

/-- A change of the lease changes no claim. -/
theorem Point.claimsOf_mapLease (pt : Point) (f : Lease → Lease) (p : Port) :
    Point.claimsOf { pt with holder := pt.holder.mapLease f } p = pt.claimsOf p :=
  Point.claimsOf_congr (pt' := { pt with holder := pt.holder.mapLease f }) (Holder.party_mapLease f _) rfl p

theorem Point.claimsOf_restart (pt : Point) (p : Port) :
    Point.claimsOf { pt with holder := pt.holder.restart } p = pt.claimsOf p := by
  rw [Holder.restart_eq]
  exact pt.claimsOf_mapLease _ p

theorem Point.claimsOf_renewFor (pt : Point) (q p : Port) : (pt.renewFor q).claimsOf p = pt.claimsOf p := by
  unfold Point.renewFor
  split
  · exact pt.claimsOf_restart p
  · rfl

/-- A point whose claim lapses is held by the port whose claim it is (R50). -/
theorem Point.heldBy_of_lapsing {pt : Point} {p : Port} (h : pt.lapsing = some p) (q : Port) :
    pt.heldBy (.port q) = true ↔ p = q := by
  unfold Point.lapsing at h
  split at h
  · rename_i c hc
    split at h
    · obtain rfl := Option.some.inj h
      simp [Point.heldBy, hc, Holder.party]
    · cases h
  · cases h

/-- The lease part of a tick takes one claim from the port whose claim lapses (R50). -/
theorem Point.claimsOf_afterLeases {pt : Point} (hpt : pt.claimSound) (p : Port) :
    pt.afterLeases.claimsOf p + (if pt.lapsing = some p then 1 else 0) = pt.claimsOf p := by
  unfold Point.afterLeases
  cases hl : pt.lapsing with
  | none =>
    simp only [Option.isSome_none, Bool.false_eq_true, if_false, reduceCtorEq, Nat.add_zero, Holder.countDown_eq]
    exact pt.claimsOf_mapLease _ p
  | some q =>
    simp only [Option.isSome_some, if_true, Option.some.injEq, ← Point.heldBy_of_lapsing hl p]
    exact Point.claimsOf_release hpt p

/-- A wait of a list without repeats either stays or expires. -/
theorem mem_waiting_split {ws : List Wait} (hnodup : (ws.map Wait.port).Nodup) (p : Port) :
    (if p ∈ (ws.filter fun w => !w.expires).map Wait.port then 1 else 0) +
        (if p ∈ (ws.filter Wait.expires).map Wait.port then 1 else 0) =
      if p ∈ ws.map Wait.port then 1 else 0 := by
  induction ws with
  | nil => rfl
  | cons w ws ih =>
    rw [List.map_cons, List.nodup_cons] at hnodup
    have hrest := ih hnodup.2
    by_cases hp : p = w.port
    · have hkept : p ∉ (ws.filter fun w => !w.expires).map Wait.port := fun h =>
        hnodup.1 (hp ▸ (List.filter_sublist.map _).subset h)
      have hgone : p ∉ (ws.filter Wait.expires).map Wait.port := fun h =>
        hnodup.1 (hp ▸ (List.filter_sublist.map _).subset h)
      subst hp
      cases he : w.expires <;> simp only [List.filter_cons, he, List.map_cons, List.mem_cons, hkept, hgone, true_or, if_true,
        Bool.not_true, Bool.not_false, Bool.false_eq_true, if_false, Nat.add_zero, Nat.zero_add]
    · cases he : w.expires <;>
        simpa only [List.filter_cons, he, Bool.not_true, Bool.not_false, Bool.false_eq_true, if_true, if_false, List.map_cons,
          List.mem_cons, hp, false_or] using hrest

/-- A tick takes one claim for a lapse and one for each wait that expires (R50, R51). -/
theorem Point.claimsOf_counted {pt : Point} (hpt : pt.claimSound) (p : Port) :
    pt.counted.claimsOf p + ((if pt.lapsing = some p then 1 else 0) + if p ∈ pt.expiring then 1 else 0) = pt.claimsOf p := by
  rw [← Point.claimsOf_afterLeases hpt p]
  obtain ⟨-, hnodup, -, -, -, -⟩ := Point.claimSound_afterLeases hpt
  have hsplit := mem_waiting_split hnodup p
  unfold Point.claimsOf
  unfold Point.waiting at *
  rw [Point.counted_waiters, map_port_countDown]
  have hheld : pt.counted.heldBy (.port p) = pt.afterLeases.heldBy (.port p) := rfl
  rw [hheld]
  unfold Point.expiring
  omega

/-- A port's withdrawal takes its own wait and no other port's. -/
theorem Point.claimsOf_withoutPort (pt : Point) (p q : Port) :
    Point.claimsOf { pt with waiters := withoutPort p pt.waiters } q + (if q = p ∧ p ∈ pt.waiting then 1 else 0) =
      pt.claimsOf q := by
  have hmem : q ∈ (withoutPort p pt.waiters).map Wait.port ↔ q ∈ pt.waiting ∧ q ≠ p := by
    simp only [withoutPort, Point.waiting, List.mem_map, List.mem_filter, decide_eq_true_eq]
    constructor
    · rintro ⟨w, ⟨hw, hne⟩, rfl⟩
      exact ⟨⟨w, hw, rfl⟩, hne⟩
    · rintro ⟨⟨w, hw, rfl⟩, hne⟩
      exact ⟨w, ⟨hw, hne⟩, rfl⟩
  have hheld : Point.heldBy { pt with waiters := withoutPort p pt.waiters } (.port q) = pt.heldBy (.port q) := rfl
  unfold Point.claimsOf
  rw [hheld]
  conv => lhs; unfold Point.waiting
  simp only [hmem]
  by_cases hq : q = p
  · subst hq
    simp [Point.waiting]
  · simp [hq, Point.waiting]

end Sys2Proof.Machine

namespace Sys2Proof.Machine

/-! ### What the operations on the table do to the claims -/

/-- The claims after a change of one slot. -/
theorem State.claimsAt_ofSlot {s t : State} {i : PointIx} {x : Option Point}
    (ht : ∀ j, t.slot j = if j = i then x else s.slot j) (p : Port) (j : PointIx) :
    t.claimsAt p j = if j = i then (x.map fun pt => pt.claimsOf p).getD 0 else s.claimsAt p j := by
  unfold State.claimsAt
  rw [ht]
  split <;> rfl

/-- A change of every slot that changes no claim. -/
theorem State.CountsSound.ofMap {s t : State} {f : Point → Point} (hs : s.CountsSound)
    (ht : ∀ i, t.slot i = (s.slot i).map f) (hcounts : t.counts = s.counts)
    (hf : ∀ i, ∀ pt ∈ s.slot i, ∀ p, (f pt).claimsOf p = pt.claimsOf p) : t.CountsSound := by
  refine hs.same (fun p i => ?_) hcounts
  unfold State.claimsAt
  rw [ht]
  cases h : s.slot i with
  | none => rfl
  | some pt => exact hf i pt h p

/-- A change of every slot that takes claims, and of the counts by what it takes. -/
theorem State.CountsSound.loseMap {s t : State} {f : Point → Point} (hs : s.CountsSound)
    (ht : ∀ i, t.slot i = (s.slot i).map f) (lost : Port → Point → Nat)
    (hf : ∀ i, ∀ pt ∈ s.slot i, ∀ p, (f pt).claimsOf p + lost p pt = pt.claimsOf p)
    (hcounts : ∀ p, t.counts.get p = s.counts.get p - sumSlots fun i => ((s.slot i).map (lost p)).getD 0) : t.CountsSound := by
  refine hs.lose (fun p i => ((s.slot i).map (lost p)).getD 0) (fun p i => ?_) hcounts
  unfold State.claimsAt
  rw [ht]
  cases h : s.slot i with
  | none => rfl
  | some pt => exact hf i pt h p

/-- A change of one slot that takes claims, and of the counts by what it takes. -/
theorem State.CountsSound.loseSlot {s t : State} {i : PointIx} {x : Option Point} (hs : s.CountsSound)
    (ht : ∀ j, t.slot j = if j = i then x else s.slot j) (lost : Port → Nat)
    (hx : ∀ p, (x.map fun pt => pt.claimsOf p).getD 0 + lost p = s.claimsAt p i)
    (hcounts : ∀ p, t.counts.get p = s.counts.get p - lost p) : t.CountsSound := by
  refine hs.lose (fun p j => if j = i then lost p else 0) (fun p j => ?_) fun p => ?_
  · rw [State.claimsAt_ofSlot ht]
    by_cases hj : j = i
    · subst hj
      simpa using hx p
    · simp [hj]
  · rw [hcounts, sumSlots_single]

/-- The number of points with a property, as a sum over the slots. -/
theorem State.countP_eq_sum (s : State) (f : Point → Bool) :
    (s.points.toList.countP fun x => x.any f) =
      sumSlots fun i => ((s.slot i).map fun pt => if f pt then 1 else 0).getD 0 := by
  rw [State.countP_points]
  refine sumSlots_congr fun i => ?_
  cases s.slot i <;> rfl

/-- A slot that holds no held point gives no port a claim, when its record is sound. -/
theorem State.claimsAt_of_not_held {s : State} {i : PointIx} (hs : s.ClaimsSound) (h : s.slotHeld i = false) (p : Port) :
    s.claimsAt p i = 0 := by
  cases hpt : s.slot i with
  | none => exact State.claimsAt_of_none hpt p
  | some pt =>
    rw [State.claimsAt_of_slot hpt]
    refine Point.claimsOf_free (hs i pt hpt) ?_ p
    simpa [State.slotHeld, hpt] using h

/-- A point as its definition leaves it has no claim. -/
theorem PointDef.claimsOf_fresh (d : PointDef) (p : Port) : d.fresh.claimsOf p = 0 := by
  simp [Point.claimsOf, Point.heldBy, Point.waiting, PointDef.fresh, Holder.party]

/-- A release takes one claim from the port that releases and one from its count. -/
theorem State.CountsSound.releasePoint {s : State} {p : Port} {i : PointIx} {pt : Point} (hpt : s.slot i = some pt)
    (hheld : pt.heldBy (.port p) = true) (hclaims : s.ClaimsSound) (hs : s.CountsSound) : (s.releasePoint p i).CountsSound := by
  refine hs.loseSlot (State.slot_releasePoint s p i) (fun q => if q = p then 1 else 0) (fun q => ?_) fun q => ?_
  · have hq : (q = p) ↔ pt.heldBy (.port q) = true := by
      simp only [Point.heldBy, decide_eq_true_eq] at hheld ⊢
      rw [hheld, Option.some.injEq, Party.port.injEq, eq_comm]
    rw [State.claimsAt_of_slot hpt, hpt]
    simp only [hq]
    exact Point.claimsOf_release (hclaims i pt hpt) q
  · rw [State.releasePoint_eq s p i pt hpt, PerPort.get_set]
    split
    · simp [*]
    · rfl

/-- The number of listed points that are free, as a sum over the slots. -/
theorem State.freeCount_eq_sum (s : State) {ixs : List PointIx} (h : ixs.Nodup) :
    s.freeCount ixs = sumSlots fun i => if i ∈ ixs ∧ (s.slot i).any (fun pt => pt.holder.party.isNone) = true then 1 else 0 := by
  unfold State.freeCount
  exact countP_nodup h _

/-- A granted CLAIM gives the port one claim at each listed point that was free, and counts them (R35, R40). -/
theorem State.CountsSound.grantClaim {s : State} {c : PortClaim} {ixs : List PointIx} (hnodup : ixs.Nodup)
    (hall : ∀ i ∈ ixs, ∃ pt, s.slot i = some pt ∧ (pt.holder.party = none ∨ pt.holder.party = some (.port c.port)))
    (hlimit : s.counts.get c.port + s.freeCount ixs ≤ Config.claimLimit) (hclaims : s.ClaimsSound) (hs : s.CountsSound) :
    (s.grantClaim c ixs).CountsSound := by
  have hcounts : ∀ q, (s.grantClaim c ixs).counts.get q =
      if q = c.port then s.counts.get c.port + s.freeCount ixs else s.counts.get q := fun q => by
    unfold State.grantClaim
    have hfold := foldl_field (fun s : State => s.counts)
      (fun (s : State) i => s.modifySlot i fun pt => { pt with holder := .port c }) (fun _ _ => rfl) ixs s
    simp [hfold]
  refine hs.gain
    (fun q i => if q = c.port then
      (if i ∈ ixs ∧ (s.slot i).any (fun pt => pt.holder.party.isNone) = true then 1 else 0) else 0)
    (fun q i => ?_) (fun q => ?_) fun q => ?_
  · unfold State.claimsAt
    rw [State.slot_grantClaim]
    by_cases hi : i ∈ ixs
    · obtain ⟨pt, hpt, hfree | hown⟩ := hall i hi
      · obtain ⟨-, -, -, hempty, -, -⟩ := hclaims i pt hpt
        have hw := hempty (Holder.party_eq_none.1 hfree)
        simp [hi, hpt, Point.claimsOf, Point.heldBy, Point.waiting, Holder.party_port, hfree, hw, eq_comm (a := q)]
      · have hsame := Point.claimsOf_congr (pt := pt) (pt' := { pt with holder := .port c }) hown.symm rfl q
        simp [hi, hpt, hown, hsame]
    · simp [hi]
  · rw [hcounts]
    split
    · rename_i hq
      simp only [hq]
      rw [State.freeCount_eq_sum s hnodup]
    · rw [sumSlots_zero, Nat.add_zero]
  · rw [hcounts]
    split
    · exact hlimit
    · exact (hs q).2

/-- A placed wait is one more claim of its port, and is counted (R35, R39). -/
theorem State.CountsSound.placeWait {s : State} {i : PointIx} {pt : Point} {w : Wait} (hpt : s.slot i = some pt)
    (hnew : w.port ∉ pt.waiting) (hlimit : s.counts.get w.port + 1 ≤ Config.claimLimit) (hs : s.CountsSound) :
    ((s.modifySlot i fun pt => { pt with waiters := pt.waiters ++ [w] }).setCount w.port
      (s.counts.get w.port + 1)).CountsSound := by
  refine hs.gain (fun q j => if j = i then (if q = w.port then 1 else 0) else 0) (fun q j => ?_) (fun q => ?_) fun q => ?_
  · unfold State.claimsAt
    rw [State.slot_setCount, State.slot_modifySlot]
    by_cases hj : j = i
    · subst hj
      have hheld : Point.heldBy { pt with waiters := pt.waiters ++ [w] } (.port q) = pt.heldBy (.port q) := rfl
      have hmem : q ∈ Point.waiting { pt with waiters := pt.waiters ++ [w] } ↔ q ∈ pt.waiting ∨ q = w.port := by
        simp [Point.waiting]
      simp only [if_true, hpt, Option.map_some, Option.getD_some, Point.claimsOf, hheld, hmem, Nat.add_assoc]
      by_cases hq : q = w.port
      · subst hq
        simp [hnew]
      · simp [hq]
    · simp [hj]
  · rw [sumSlots_single, State.setCount_counts, PerPort.get_set]
    split
    · simp [*]
    · rfl
  · rw [State.setCount_counts, PerPort.get_set]
    split
    · exact hlimit
    · exact (hs q).2

theorem getD_map_zero (x : Option Point) : (x.map fun _ => 0).getD 0 = 0 := by cases x <;> rfl

/-- RELEASE ALL takes every point the port holds, and counts them down together (R42). -/
theorem State.CountsSound.releaseAll {s : State} (p : Port) (hclaims : s.ClaimsSound) (hs : s.CountsSound) :
    (s.releaseAll p).CountsSound := by
  refine hs.loseMap (s := s) (f := fun pt => pt.releaseFrom (.port p)) (fun i => ?_)
    (fun q pt => if Party.port p = .port q ∧ pt.heldBy (.port p) then 1 else 0)
    (fun i pt hpt q => Point.claimsOf_releaseFrom (hclaims i pt hpt) _ q) fun q => ?_
  · unfold State.releaseAll State.releaseHeld
    simp
  · have hcounts : (s.releaseAll p).counts.get q =
        if q = p then s.counts.get p - s.heldCount (.port p) else s.counts.get q := by
      unfold State.releaseAll
      simp
    rw [hcounts]
    split
    · rename_i hq
      subst hq
      unfold State.heldCount
      rw [State.countP_eq_sum]
      simp
    · rename_i hq
      simp only [Party.port.injEq, Ne.symm hq, false_and, if_false, getD_map_zero, sumSlots_zero, Nat.sub_zero]

/-- A withdrawal takes the port's wait and counts it down (R44). -/
theorem State.CountsSound.withdraw {s : State} {p : Port} {i : PointIx}
    (hwait : ((s.waitersAt i).any fun w => w.port = p) = true) (hs : s.CountsSound) :
    ((s.modifySlot i fun pt => { pt with waiters := withoutPort p pt.waiters }).countDown p).CountsSound := by
  cases hpt : s.slot i with
  | none => simp [State.waitersAt, hpt] at hwait
  | some pt =>
    have hmem : p ∈ pt.waiting := by
      rw [State.waitersAt_of_slot hpt] at hwait
      simpa [Point.waiting] using hwait
    refine hs.loseSlot (State.slot_modifySlot s i · _) (fun q => if q = p ∧ p ∈ pt.waiting then 1 else 0) (fun q => ?_)
      fun q => ?_
    · rw [State.claimsAt_of_slot hpt, hpt]
      exact pt.claimsOf_withoutPort p q
    · rw [State.countDown_counts, PerPort.get_set]
      split
      · simp [*]
      · simp [*]

/-- A tick of the claim arbiter takes the claims that lapse and the waits that expire, and counts them down (R35, R50, R51). -/
theorem State.CountsSound.arbiterTick {s : State} (hclaims : s.ClaimsSound) (hs : s.CountsSound) :
    s.arbiterTick.CountsSound := by
  refine hs.loseMap (State.slot_arbiterTick s)
    (fun q pt => (if pt.lapsing = some q then 1 else 0) + if q ∈ pt.expiring then 1 else 0)
    (fun i pt hpt q => Point.claimsOf_counted (hclaims i pt hpt) q) fun q => ?_
  have hcounts : s.arbiterTick.counts.get q = s.counts.get q - s.endingCount q := by
    unfold State.arbiterTick
    simp
  rw [hcounts, State.endingCount, State.countP_eq_sum, State.countP_eq_sum, ← sumSlots_add]
  refine congrArg (s.counts.get q - ·) (sumSlots_congr fun i => ?_)
  cases s.slot i <;> simp

/-- An internal grant takes free points, which give no port a claim (R48). -/
theorem State.CountsSound.grantInternal {s : State} {h : Holder} {l : List PointIx}
    (hh : h = .scanner ∨ ∃ n, h = .order n) (hfree : ∀ i ∈ l, s.FreeForInternal i) (hclaims : s.ClaimsSound)
    (hs : s.CountsSound) : (s.grantInternal h l).CountsSound := by
  refine hs.same (fun q i => ?_) (State.grantInternal_counts s h l)
  by_cases hi : i ∈ l
  · obtain ⟨pt, hpt, -, hnone⟩ := hfree i hi
    rw [State.claimsAt_of_slot hpt, Point.claimsOf_free (hclaims i pt hpt) hnone]
    unfold State.claimsAt
    rw [State.slot_grantInternal, if_pos hi, Option.mem_def.1 hpt]
    rcases hh with rfl | ⟨n, rfl⟩ <;> simp [Point.claimsOf, Point.heldBy, Point.waiting, Holder.party]
  · unfold State.claimsAt
    rw [State.slot_grantInternal, if_neg hi]

/-- What a port reset takes at one point: every claim of the port, and none of another (R56). -/
theorem Point.claimsOf_afterPortReset {pt : Point} (hpt : pt.claimSound) (p q : Port) :
    (pt.afterPortReset p).claimsOf q + (if q = p then pt.claimsOf p else 0) = pt.claimsOf q := by
  have hrelease := Point.claimsOf_releaseFrom (Point.claimSound_withoutPort hpt p) (.port p) q
  have hwaits := pt.claimsOf_withoutPort p q
  have hreset : (pt.afterPortReset p).claimsOf q =
      (Point.releaseFrom { pt with waiters := withoutPort p pt.waiters } (.port p)).claimsOf q := rfl
  rw [hreset]
  by_cases hq : q = p
  · subst hq
    have hheld : Point.heldBy { pt with waiters := withoutPort q pt.waiters } (.port q) = pt.heldBy (.port q) := rfl
    simp only [hheld, true_and, if_true] at hrelease hwaits ⊢
    have hsplit : pt.claimsOf q = (if pt.heldBy (.port q) then 1 else 0) + if q ∈ pt.waiting then 1 else 0 := rfl
    omega
  · simp only [hq, Ne.symm hq, Party.port.injEq, false_and, if_false, Nat.add_zero] at hrelease hwaits ⊢
    omega

/-- A port reset takes every claim of the port, and its count with them (R56). -/
theorem State.CountsSound.portReset {s : State} (p : Port) (w : List Entry) (hclaims : s.ClaimsSound) (hs : s.CountsSound) :
    (s.portReset p w).CountsSound := by
  refine hs.loseMap (State.slot_portReset s p w) (fun q pt => if q = p then pt.claimsOf p else 0)
    (fun i pt hpt q => Point.claimsOf_afterPortReset (hclaims i pt hpt) p q) fun q => ?_
  have hcounts : (s.portReset p w).counts.get q = if q = p then 0 else s.counts.get q := by
    unfold State.portReset
    simp
  rw [hcounts]
  split
  · rename_i hq
    subst hq
    rw [((State.countsSound_iff s).1 hs q).1]
    exact (Nat.sub_self _).symm
  · simp only [getD_map_zero, sumSlots_zero, Nat.sub_zero]

/-- The operations on the table keep the claim records and the counts sound together. -/
theorem claimsAndCounts_kept : KeptByTable fun s => s.ClaimsSound ∧ s.CountsSound where
  congr s t hp hc h := ⟨claimSound_kept.keptByTable.congr s t hp hc h.1,
    h.2.same (fun p i => by simp only [State.claimsAt, State.slot_congr hp]) hc⟩
  reset := ⟨claimSound_kept.keptByTable.reset,
    State.countsSound_zero (fun p i => State.claimsAt_of_none (by simp [State.reset, State.slot]) p) fun p => PerPort.get_all 0 p⟩
  store s i pt x q hpt hq h := ⟨claimSound_kept.keptByTable.store s i pt x q hpt hq h.1,
    h.2.same (fun p j => by
      rw [State.claimsAt_ofSlot (State.slot_store s i pt _ q)]
      split
      · subst_vars
        rw [State.claimsAt_of_slot hpt]
        exact pt.claimsOf_restart p
      · rfl) (State.store_counts ..)⟩
  release s p i pt hpt hheld h := ⟨claimSound_kept.keptByTable.release s p i pt hpt hheld h.1,
    h.2.releasePoint hpt hheld h.1⟩
  define s i args d hd hfree h := ⟨claimSound_kept.keptByTable.define s i args d hd hfree h.1,
    h.2.loseSlot (State.slot_replaceSlot s i _) (fun _ => 0)
      (fun p => by rw [State.claimsAt_of_not_held h.1 hfree]; exact d.claimsOf_fresh p)
      fun p => by rw [State.replaceSlot_eq]; rfl⟩
  undefine s i hfree h := ⟨claimSound_kept.keptByTable.undefine s i hfree h.1,
    h.2.loseSlot (State.slot_replaceSlot s i none) (fun _ => 0)
      (fun p => by rw [State.claimsAt_of_not_held h.1 hfree]; rfl) fun p => by rw [State.replaceSlot_eq]; rfl⟩
  tableReset s h := ⟨claimSound_kept.keptByTable.tableReset s h.1,
    State.countsSound_zero (fun p i => by
      unfold State.claimsAt
      rw [State.slot_tableReset]
      cases s.slot i with
      | none => rfl
      | some pt => exact pt.defn.claimsOf_fresh p) fun p => PerPort.get_all 0 p⟩
  claim s p args mode ixs hnodup hwait h := by
    refine ⟨claimSound_kept.keptByTable.claim s p args mode ixs hnodup hwait h.1, ?_⟩
    obtain he | ⟨i, pt, _, w, hpt, -, -, -, -, rfl, hnew, -, hlimit, he⟩ | ⟨hall, hlimit, he⟩ := s.takeClaim_cases p args mode ixs
    · rw [he]
      exact h.2
    · rw [he]
      exact h.2.placeWait hpt hnew hlimit
    · rw [he]
      exact h.2.grantClaim hnodup (fun i hi => (hall i hi).imp fun pt hpt => ⟨hpt.1, hpt.2.2⟩) hlimit h.1
  releaseAll s p h := ⟨claimSound_kept.keptByTable.releaseAll s p h.1, h.2.releaseAll p h.1⟩
  renew s p i h := ⟨claimSound_kept.keptByTable.renew s p i h.1,
    h.2.same (fun q j => by
      rw [State.claimsAt_ofSlot (State.slot_modifySlot s i · _)]
      split
      · subst_vars
        unfold State.claimsAt
        rw [Option.map_map]
        congr 2
        exact funext fun pt => pt.claimsOf_renewFor p q
      · rfl) rfl⟩
  renewAll s p h := ⟨claimSound_kept.keptByTable.renewAll s p h.1,
    h.2.ofMap (State.slot_mapPoints s _) rfl fun _ pt _ q => pt.claimsOf_renewFor p q⟩
  withdraw s p i hwait h := ⟨claimSound_kept.keptByTable.withdraw s p i hwait h.1, h.2.withdraw hwait⟩
  age s h := ⟨claimSound_kept.keptByTable.age s h.1,
    h.2.ofMap (State.slot_ageTable s) (by unfold State.ageTable; simp) fun _ pt _ q => by rw [Point.aged_eq]; rfl⟩
  arbiterTick s h := ⟨claimSound_kept.keptByTable.arbiterTick s h.1, h.2.arbiterTick h.1⟩
  releaseHeld s w hw h := ⟨claimSound_kept.keptByTable.releaseHeld s w hw h.1,
    h.2.ofMap (State.slot_mapPoints s _) rfl fun i pt hpt q => by
      simpa [hw] using Point.claimsOf_releaseFrom (h.1 i pt hpt) w q⟩
  grantInternal s hld l hh hfree h := ⟨claimSound_kept.keptByTable.grantInternal s hld l hh hfree h.1,
    h.2.grantInternal hh hfree h.1⟩
  portReset s p w h := ⟨claimSound_kept.keptByTable.portReset s p w h.1, h.2.portReset p w h.1⟩

/-- Settles O8: a claim record stays sound on its own, and with sound records each count follows its port's claims. -/
theorem claimsAndCountsStaySound : Obligations.ClaimsAndCountsStaySound :=
  ⟨claimSound_kept.keptByTable.keptByStep, claimsAndCounts_kept.keptByStep⟩

end Sys2Proof.Machine

namespace Sys2Proof.Machine

/-! ### Fields that name points (R1, R15, R17) -/

/-- Indices of 511 or less are read as the points they name. -/
theorem allSome_pointIx {fields : List Half} {ixs : List PointIx} (h : Names fields ixs) : allSome pointIx? fields = some ixs := by
  unfold Names at h
  induction fields generalizing ixs with
  | nil =>
    cases ixs with
    | nil => rfl
    | cons => cases h
  | cons f fields ih =>
    cases ixs with
    | nil => cases h
    | cons i ixs =>
      rw [List.map_cons, List.map_cons, List.cons.injEq] at h
      simp [allSome, (pointIx?_eq_some f i).2 h.1, ih h.2]

/-- A check made of a whole list fails when it fails on one of its elements. -/
theorem allSome_eq_none {α β : Type} {f : α → Option β} {xs : List α} {x : α} (hx : x ∈ xs) (h : f x = none) :
    allSome f xs = none := by
  induction xs with
  | nil => cases hx
  | cons y ys ih =>
    rcases List.mem_cons.1 hx with rfl | hmem
    · simp [allSome, h]
    · rw [allSome, ih hmem]
      cases f y <;> rfl

/-- Settles O16: a READ that is due answers with the points as they stand, or BAD_ARG, and the answer is all it does. -/
theorem readReportsEachPoint : Obligations.ReadReportsEachPoint := by
  intro s p fields hdue
  refine ⟨fun ixs h => onlyReplies_of ?_, fun ⟨f, hf, hbig⟩ => onlyReplies_of ?_, fun i pt h => ?_, fun i h => ?_⟩
  · show execRead p fields s = _
    unfold execRead
    rw [onRequest_due hdue, allSome_pointIx h]
  · show execRead p fields s = _
    unfold execRead
    rw [onRequest_due hdue, allSome_eq_none hf ((pointIx?_eq_none f).2 hbig)]
  · simp [State.readResult, h]
  · simp [State.readResult, h]

/-! ### One WRITE entry (R18, R22) -/

section
variable {s : State} {p : Port} {e : WriteEntry} {pt : Point}

/-- An entry for an undefined slot is NOT_DEFINED. -/
theorem State.takeWrite_undefined (h : s.slot e.point = none) : s.takeWrite p e = (s, ⟨.notDefined, 0, 0⟩) := by
  simp [State.takeWrite, h]

/-- An entry for a point that the port does not hold is NOT_HOLDER. -/
theorem State.takeWrite_notHolder (h : s.slot e.point = some pt) (hheld : pt.heldBy (.port p) = false) :
    s.takeWrite p e = (s, ⟨.notHolder, pt.value, pt.seq⟩) := by
  simp [State.takeWrite, h, hheld]

/-- An entry outside the limits of a point with limit action REJECT is OUT_OF_RANGE. -/
theorem State.takeWrite_outOfRange (h : s.slot e.point = some pt) (hheld : pt.heldBy (.port p) = true)
    (hrange : pt.defn.rejects (pt.defn.kind.num e.value) = true) :
    s.takeWrite p e = (s, ⟨.outOfRange, pt.value, pt.seq⟩) := by
  simp [State.takeWrite, h, hheld, hrange]

/-- Any other entry is an accepted port write. -/
theorem State.takeWrite_accepted (h : s.slot e.point = some pt) (hheld : pt.heldBy (.port p) = true)
    (hrange : pt.defn.rejects (pt.defn.kind.num e.value) = false) :
    s.takeWrite p e =
      (s.portWrite p e.point pt (pt.defn.fit (pt.defn.kind.num e.value)) (writtenQuality e.suspect)
          (!pt.defn.inRange (pt.defn.kind.num e.value)),
        ⟨if !pt.defn.inRange (pt.defn.kind.num e.value) then .okClamped else .ok, pt.defn.fit (pt.defn.kind.num e.value),
          pt.seq + 1⟩) := by
  simp [State.takeWrite, h, hheld, hrange]

end

/-- A write with its causes changes its own slot alone. -/
theorem State.slot_storeAndRaise (s : State) (i : PointIx) (pt : Point) (v : Word) (q : Quality) (c : Bool) (j : PointIx) :
    (s.storeAndRaise i pt v q c).slot j = if j = i then some (pt.written v q) else s.slot j := by
  unfold State.storeAndRaise
  rw [State.slot_raiseAll, State.slot_store]

/-- An accepted port write changes its own slot alone: the point is written, and released when the claim was WRITE_ONCE. -/
theorem State.slot_portWrite (s : State) (p : Port) (i : PointIx) (pt : Point) (v : Word) (q : Quality) (c : Bool) (j : PointIx) :
    (s.portWrite p i pt v q c).slot j =
      if j = i then some (if pt.holder.isOnce then (pt.written v q).release else pt.written v q) else s.slot j := by
  unfold State.portWrite
  dsimp only
  split
  · rw [State.slot_releasePoint, State.slot_storeAndRaise, State.slot_storeAndRaise]
    by_cases hj : j = i <;> simp [hj]
  · rw [State.slot_storeAndRaise]

/-- An accepted port write counts a WRITE_ONCE claim down, and no other (R34, R35). -/
theorem State.counts_portWrite (s : State) (p : Port) (i : PointIx) (pt : Point) (v : Word) (q : Quality) (c : Bool) (r : Port) :
    (s.portWrite p i pt v q c).counts.get r =
      if r = p ∧ pt.holder.isOnce = true then s.counts.get r - 1 else s.counts.get r := by
  unfold State.portWrite
  dsimp only
  split
  · have hslot : (s.storeAndRaise i pt v q c).slot i = some (pt.written v q) := by
      rw [State.slot_storeAndRaise, if_pos rfl]
    rw [State.releasePoint_eq _ p i _ hslot]
    simp only [PerPort.get_set, State.storeAndRaise_counts, and_true, *]
    split
    · simp [*]
    · rfl
  · simp [*]

/-- A release, or none, leaves value and sequence as they are. -/
theorem Point.value_seq_ite_release (pt : Point) (b : Bool) :
    (if b then pt.release else pt).value = pt.value ∧ (if b then pt.release else pt).seq = pt.seq := by
  split
  · rw [Point.release_eq]
    exact ⟨rfl, rfl⟩
  · exact ⟨rfl, rfl⟩

/-- The fields of WRITE entries with their indices of 511 or less. -/
theorem allSome_writeEntry {args : List WriteArgs} {es : List WriteEntry}
    (h : args.map (fun a => (a.point.toNat, a.value, a.suspect)) = es.map (fun e => (e.point.val, e.value, e.suspect))) :
    allSome writeEntry? args = some es := by
  induction args generalizing es with
  | nil =>
    cases es with
    | nil => rfl
    | cons => cases h
  | cons a args ih =>
    cases es with
    | nil => cases h
    | cons e es =>
      rw [List.map_cons, List.map_cons, List.cons.injEq, Prod.mk.injEq, Prod.mk.injEq] at h
      obtain ⟨⟨hpoint, hvalue, hsuspect⟩, hrest⟩ := h
      simp [allSome, writeEntry?, (pointIx?_eq_some a.point e.point).2 hpoint, hvalue, hsuspect, ih hrest]

/-- A WRITE leaves the ports alone. -/
theorem State.takeWrites_ports (s : State) (p : Port) (es : List WriteEntry) : (s.takeWrites p es).1.ports = s.ports := by
  have h := congrArg State.ports (State.takeWrites_frame s p es)
  exact h

/-- Settles O17: a WRITE that is due takes its entries in order, and each entry is one of four cases. -/
theorem writeTakesEntriesInOrder : Obligations.WriteTakesEntriesInOrder := by
  refine ⟨⟨fun s p args hdue => ?_, fun _ _ => rfl, fun _ _ _ _ => rfl⟩, fun s p e => ⟨State.takeWrite_undefined, ?_⟩⟩
  · refine ⟨fun es h => ?_, fun ⟨a, ha, hbig⟩ => onlyReplies_of ?_⟩
    · have hexec : exec (.write p args) s =
          .next ((s.takeWrites p es).1.answer p .ok (.write (s.takeWrites p es).2)).settle := by
        show execWrite p args s = _
        unfold execWrite
        rw [onRequest_due hdue, allSome_writeEntry h]
      have hports := s.takeWrites_ports p es
      refine ⟨_, hexec, replied_answer hports p _ _, ?_⟩
      rw [← hports]
      rfl
    · have hnone : writeEntry? a = none := by simp [writeEntry?, (pointIx?_eq_none a.point).2 hbig]
      show execWrite p args s = _
      unfold execWrite
      rw [onRequest_due hdue, allSome_eq_none ha hnone]
  · refine fun pt hpt => ⟨State.takeWrite_notHolder hpt, fun hheld => ⟨State.takeWrite_outOfRange hpt hheld, fun hrange => ?_⟩⟩
    rw [State.takeWrite_accepted hpt hheld hrange]
    obtain ⟨hvalue, hseq⟩ := Point.value_seq_ite_release
      (pt.written (pt.defn.fit (pt.defn.kind.num e.value)) (writtenQuality e.suspect)) pt.holder.isOnce
    exact ⟨by cases pt.defn.inRange (pt.defn.kind.num e.value) <;> rfl, _, (State.slot_portWrite ..).trans (if_pos rfl),
      hvalue.symm, hseq.symm, hvalue, hseq⟩

/-- Settles O19: an accepted entry is a port write, which changes its slot, the count and the write's neighbours alone. -/
theorem acceptedWriteStores : Obligations.AcceptedWriteStores := by
  intro s p e pt hpt hheld hrange
  dsimp only
  rw [State.takeWrite_accepted hpt hheld hrange]
  refine ⟨rfl, (State.slot_portWrite ..).trans ?_, fun j hj => (State.slot_portWrite ..).trans (if_neg hj),
    State.counts_portWrite s p _ _ _ _ _, State.portWrite_frame s p _ _ _ _ _⟩
  rw [if_pos rfl]
  rfl

end Sys2Proof.Machine

namespace Sys2Proof.Machine

/-! ### Lines and subscribers of one point (R21, R74 to R76, R80, R105) -/

/-- The level a line asks for is read from the points alone. -/
theorem State.lineLevel_congr {s t : State} (h : t.points = s.points) (o : Output) : t.lineLevel o = s.lineLevel o := by
  have hslot : t.slot = s.slot := funext fun i => State.slot_congr h i
  unfold State.lineLevel
  rw [hslot]

/-- The lines bound to one point are evaluated again, the others stay. -/
theorem State.driveLines_point (s : State) (i : PointIx) (n : Fin 8) :
    (s.driveLines fun j => j = i).outputs[n.val] =
      if s.outputs[n.val].point = some i then { s.outputs[n.val] with level := s.lineLevel s.outputs[n.val] }
      else s.outputs[n.val] := by
  have hany : (s.outputs[n.val].point.any fun j => j = i) = true ↔ s.outputs[n.val].point = some i := by
    cases s.outputs[n.val].point <;> simp
  simp only [State.driveLines_outputs, mapTable_getElem, hany]

/-- A line bound to an undefined or UNSET point asks for its safe level (R104). -/
theorem State.lineLevel_safe {s : State} {o : Output} {i : PointIx} (ho : o.point = some i)
    (h : ∀ pt ∈ s.slot i, pt.quality = .unset) : s.lineLevel o = o.safe := by
  unfold State.lineLevel
  rw [ho, Option.bind_some]
  cases hpt : s.slot i with
  | none => rfl
  | some pt => simp [h pt hpt]

/-- Causes of one point for one port reach that port alone. -/
theorem raisedFor_map_port (p r : Port) (i : PointIx) (cs : List Cause) :
    raisedFor p (cs.map fun c => ⟨r, .point i, c⟩) = if r = p then cs.map fun c => (.point i, c) else [] := by
  induction cs with
  | nil => split <;> rfl
  | cons c cs ih =>
    rw [List.map_cons, raisedFor_cons, ih]
    split <;> rfl

/-- The causes that a write raises for one port are those of its subscription (R74 to R76). -/
theorem raisedFor_writeRaises (s : State) (i : PointIx) (pt : Point) (v : Word) (q : Quality) (clamped : Bool) (p : Port) :
    raisedFor p (s.writeRaises i pt v q clamped) =
      ((s.sub p i).toList.flatMap fun sub => sub.causes pt.defn.kind v pt.quality q clamped).map fun c => (.point i, c) := by
  have hone : ∀ r : Port, raisedFor p (match s.sub r i with
      | some sub => (sub.causes pt.defn.kind v pt.quality q clamped).map fun c => (⟨r, .point i, c⟩ : Raise)
      | none => []) =
      if r = p then
        ((s.sub r i).toList.flatMap fun sub => sub.causes pt.defn.kind v pt.quality q clamped).map fun c => (.point i, c)
      else [] := fun r => by
    cases s.sub r i with
    | none => simp [raisedFor]
    | some sub => simp only [raisedFor_map_port, Option.toList_some, List.flatMap_cons, List.flatMap_nil, List.append_nil]
  unfold State.writeRaises
  rw [raisedFor_flatMap]
  refine (congrArg (fun f => Port.list.flatMap f) (funext hone)).trans ?_
  cases p <;> simp [Port.list]

/-- Settles O20: the parts of a write are those of State.store_eq, and each port's unit takes the causes of its subscription. -/
theorem writeReachesItsNeighbours : Obligations.WriteReachesItsNeighbours := by
  intro s i pt v q clamped hpt
  have hraises := raisedFor_writeRaises s i pt v q clamped
  have hsubs : ∀ p, (s.store i pt v q).notices.get p = { s.notices.get p with
      subs := (s.notices.get p).subs.set i.val ((s.sub p i).map fun sub => sub.afterWrite pt.defn.kind v) } := fun p => by
    rw [State.store_eq, State.followSubs_notices, PerPort.get_map]
    rfl
  refine ⟨(State.slot_storeAndRaise ..).trans (if_pos rfl), fun j hj => (State.slot_storeAndRaise ..).trans (if_neg hj),
    fun n => ?_, ?_, fun p => ?_, ?_, rfl, ?_, hsubs, hraises⟩
  · have hpoints : (s.storeAndRaise i pt v q clamped).points = (s.setSlot i (some (pt.written v q))).points := by
      rw [State.storeAndRaise_eq, State.store_eq]
      rfl
    have houtputs : (s.storeAndRaise i pt v q clamped).outputs =
        ((s.setSlot i (some (pt.written v q))).driveLines fun j => j = i).outputs := by
      rw [State.storeAndRaise_eq, State.store_eq]
    rw [State.lineLevel_congr hpoints]
    simp only [houtputs]
    exact State.driveLines_point _ i n
  · rw [State.storeAndRaise_eq, State.store_eq]
    exact ⟨rfl, rfl, rfl⟩
  · rw [State.storeAndRaise, State.raiseAll_notices_get _ _ _ (State.raiseAll_points ..) (State.raiseAll_orders ..), hraises, hsubs]
  · rw [State.storeAndRaise_eq, State.store_eq]
  · rw [State.storeAndRaise_eq]

/-! ### Definition and removal (R9 to R12) -/

/-- A line bound to a point whose slot gets a fresh record or none goes to its safe level (R105). -/
theorem State.outputs_replaceSlot (s : State) (i : PointIx) (x : Option Point) (hx : ∀ pt ∈ x, pt.quality = .unset) (n : Fin 8) :
    (s.replaceSlot i x).outputs[n.val] =
      if s.outputs[n.val].point = some i then { s.outputs[n.val] with level := s.outputs[n.val].safe }
      else s.outputs[n.val] := by
  have houtputs : (s.replaceSlot i x).outputs = (((s.dropSubs i).setSlot i x).driveLines fun j => j = i).outputs := by
    rw [State.replaceSlot_eq]
  have hdriven : (s.replaceSlot i x).outputs[n.val] =
      if s.outputs[n.val].point = some i then
        { s.outputs[n.val] with level := ((s.dropSubs i).setSlot i x).lineLevel s.outputs[n.val] }
      else s.outputs[n.val] := by
    simp only [houtputs]
    exact State.driveLines_point _ i n
  rw [hdriven]
  by_cases hbound : s.outputs[n.val].point = some i
  · rw [if_pos hbound, if_pos hbound, State.lineLevel_safe hbound fun pt hpt => hx pt (by simpa using hpt)]
  · rw [if_neg hbound, if_neg hbound]

/-- Each subscriber of a slot that is replaced loses its subscription and receives UNDEFINED (R80). -/
theorem State.notices_replaceSlot (s : State) (i : PointIx) (x : Option Point) (q : Port) :
    (s.replaceSlot i x).notices.get q =
      NoticeUnit.takeAll { s.notices.get q with subs := (s.notices.get q).subs.set i.val none } (s.replaceSlot i x)
        (if (s.sub q i).isSome then [(.point i, .undefined)] else []) := by
  unfold State.replaceSlot
  dsimp only
  rw [State.raiseAll_notices_get _ _ _ (State.raiseAll_points ..) (State.raiseAll_orders ..), raisedFor_subscribers]
  congr 1
  simp

/-- A slot that is replaced changes the points, the notice units and the output lines alone. -/
theorem State.replaceSlot_frame (s : State) (i : PointIx) (x : Option Point) :
    { s.replaceSlot i x with points := s.points, notices := s.notices, outputs := s.outputs } = s := by
  rw [State.replaceSlot_eq]

/-- DEFINE accepts a body exactly when each field passes its check (R9, R193). -/
theorem pointDef?_eq_some_fields (args : DefineArgs) (d : PointDef) : pointDef? args = some d ↔
    args.kind = (match d.kind with
      | .u32 => 0x00
      | .s32 => 0x01
      | .bool => 0x02) ∧
    args.limitAction = (match d.limitAction with
      | .reject => 0x00
      | .clamp => 0x01) ∧
    d.default = args.default ∧
    (if d.kind = .bool then d.low = 0 ∧ d.high = 1 else d.low = args.low ∧ d.high = args.high) ∧
    d.maxAge = args.maxAge.toNat ∧ d.rights.ports.a = args.rights.getLsbD 0 ∧
    d.rights.ports.b = args.rights.getLsbD 1 ∧ d.rights.ports.c = args.rights.getLsbD 2 ∧
    d.rights.ports.d = args.rights.getLsbD 3 ∧ d.rights.internal = args.rights.getLsbD 4 ∧
    args.rights.extractLsb' 0 5 ≠ 0 ∧
    d.lowNum ≤ d.highNum ∧ d.inRange (d.kind.num d.default) = true := by
  have hspelled : d = PointDef.spelledBy args d.kind d.limitAction ↔
      d.default = args.default ∧
      (if d.kind = .bool then d.low = 0 ∧ d.high = 1 else d.low = args.low ∧ d.high = args.high) ∧
      d.maxAge = args.maxAge.toNat ∧ d.rights = rightsOf args.rights := by
    obtain ⟨kind, default, low, high, action, maxAge, rights⟩ := d
    simp only [PointDef.spelledBy, PointDef.mk.injEq, true_and]
    split <;> simp [and_assoc]
  rw [pointDef?_eq_some_iff, kind?_eq_some, limitAction?_eq_some, hspelled, PointDef.passes_iff]
  constructor
  · rintro ⟨hkind, haction, ⟨hdefault, hlimits, hage, hrights⟩, hempty, hchecks⟩
    obtain ⟨ha, hb, hc, hd, hi⟩ := (eq_rightsOf _ _).1 hrights
    rw [hrights, rightsOf_isEmpty_eq_false] at hempty
    exact ⟨hkind, haction, hdefault, hlimits, hage, ha, hb, hc, hd, hi, hempty, hchecks⟩
  · rintro ⟨hkind, haction, hdefault, hlimits, hage, ha, hb, hc, hd, hi, hempty, hchecks⟩
    have hrights := (eq_rightsOf _ _).2 ⟨ha, hb, hc, hd, hi⟩
    refine ⟨hkind, haction, ⟨hdefault, hlimits, hage, hrights⟩, ?_, hchecks⟩
    rw [hrights, rightsOf_isEmpty_eq_false]
    exact hempty

/-- A request that replaces a slot and is answered OK: the slot, its lines and its subscribers, and nothing else. -/
theorem State.replaceSlot_answered {s : State} {p : Port} {i : PointIx} {x : Option Point} (hx : ∀ pt ∈ x, pt.quality = .unset) :
    let t := ((s.replaceSlot i x).answer p .ok .empty).settle
    Replied s t p .ok .empty ∧ t.slot i = x ∧ (∀ j, j ≠ i → t.slot j = s.slot j) ∧
      (∀ q, t.notices.get q =
        NoticeUnit.takeAll { s.notices.get q with subs := (s.notices.get q).subs.set i.val none } t
          (if (s.sub q i).isSome then [(.point i, .undefined)] else [])) ∧
      (∀ n : Fin 8, t.outputs[n.val] =
        if s.outputs[n.val].point = some i then { s.outputs[n.val] with level := s.outputs[n.val].safe }
        else s.outputs[n.val]) ∧
      { t with points := s.points, notices := s.notices, outputs := s.outputs, ports := s.ports } = s := by
  have hframe := s.replaceSlot_frame i x
  have hports : (s.replaceSlot i x).ports = s.ports := by rw [State.replaceSlot_eq]
  refine ⟨replied_answer hports p _ _, ?_, fun j hj => ?_, fun q => ?_, s.outputs_replaceSlot i x hx, ?_⟩
  · rw [State.slot_settle, State.slot_answer, State.slot_replaceSlot, if_pos rfl]
  · rw [State.slot_settle, State.slot_answer, State.slot_replaceSlot, if_neg hj]
  · rw [State.settle_notices, State.answer_notices, State.notices_replaceSlot]
    exact NoticeUnit.takeAll_congr (State.subjectState_congr rfl rfl) _ _
  · exact congrArg (fun w : State => { w with ports := s.ports }) hframe

/-- Settles O22: DEFINE and UNDEFINE refuse, or replace the slot by a fresh point or by none. -/
theorem defineAndUndefine : Obligations.DefineAndUndefine := by
  refine ⟨fun _ => ⟨rfl, rfl, rfl, rfl⟩, pointDef?_eq_some_fields, fun s p args hdue => ⟨fun hbad => onlyReplies_of ?_,
    fun i d hi hd => ⟨fun hheld => onlyReplies_of ?_, fun hfree => ⟨_, ?_, State.replaceSlot_answered (x := some d.fresh) ?_⟩⟩⟩,
    fun s p field hdue => ⟨fun hbig => onlyReplies_of ?_, fun i hi => ⟨fun hnone => onlyReplies_of ?_,
      fun hheld => onlyReplies_of ?_, fun pt hpt hfree => ⟨_, ?_, State.replaceSlot_answered (x := none) fun _ e => nomatch e⟩⟩⟩⟩
  · show execDefine p args s = _
    unfold execDefine
    rw [onRequest_due hdue]
    rcases hbad with hbig | hdef
    · rw [(pointIx?_eq_none _).2 hbig]
    · rw [hdef]
      cases pointIx? args.point <;> rfl
  · show execDefine p args s = _
    unfold execDefine
    rw [onRequest_due hdue, (pointIx?_eq_some _ i).2 hi, hd]
    simp [hheld]
  · show execDefine p args s = _
    unfold execDefine
    rw [onRequest_due hdue, (pointIx?_eq_some _ i).2 hi, hd]
    simp only [hfree, Bool.false_eq_true, if_false]
  · rintro _ ⟨⟩
    rfl
  · show execUndefine p field s = _
    unfold execUndefine
    rw [onRequest_due hdue, (pointIx?_eq_none _).2 hbig]
  · show execUndefine p field s = _
    unfold execUndefine
    rw [onRequest_due hdue, (pointIx?_eq_some _ i).2 hi]
    simp [hnone]
  · show execUndefine p field s = _
    unfold execUndefine
    rw [onRequest_due hdue, (pointIx?_eq_some _ i).2 hi]
    have hsome : (s.slot i).isNone = false := by
      cases h : s.slot i with
      | none => simp [State.slotHeld, h] at hheld
      | some pt => rfl
    simp [hsome, hheld]
  · show execUndefine p field s = _
    unfold execUndefine
    rw [onRequest_due hdue, (pointIx?_eq_some _ i).2 hi]
    simp [hpt, hfree]

end Sys2Proof.Machine

namespace Sys2Proof.Machine

/-! ### The table reset, owner by owner (Table 1.5-1) -/

/-- A port's subscriptions stay at a table reset, each with its point's default as reference (R93). -/
theorem State.sub_tableReset (s : State) (q : Port) (i : PointIx) :
    s.tableReset.sub q i = (s.sub q i).map fun sub =>
      { sub with reference := ((s.slot i).map fun pt => pt.defn.default).getD sub.reference } := by
  have hsub : s.tableReset.sub q i =
      ((s.notices.get q).afterReset s.points).subs[i.val] := by
    have hnotices : s.tableReset.notices =
      s.notices.map fun _ u => u.afterReset s.points := rfl
    unfold State.sub
    simp only [hnotices, PerPort.get_map]
  rw [hsub, NoticeUnit.afterReset, zipTable_getElem]
  show (s.sub q i).map (fun sub => Sub.afterReset sub (s.slot i)) = _
  cases s.slot i <;> rfl

/-- A line bound to a defined point goes to its safe level at a table reset, since every point is UNSET after it (R26, R104). -/
theorem State.outputs_tableReset (s : State) (n : Fin 8) :
    s.tableReset.outputs[n.val] =
      if (s.outputs[n.val].point.bind s.slot).isSome then { s.outputs[n.val] with level := s.outputs[n.val].safe }
      else s.outputs[n.val] := by
  have hslot := State.slot_tableReset s
  have hdriven : s.tableReset.outputs[n.val] =
      if s.outputs[n.val].point.any fun i => (s.tableReset.slot i).isSome then
        { s.outputs[n.val] with level := s.tableReset.lineLevel s.outputs[n.val] }
      else s.outputs[n.val] := mapTable_getElem _ s.outputs n.val n.isLt
  rw [hdriven]
  cases hbound : s.outputs[n.val].point with
  | none => rfl
  | some i =>
    have hunset : ∀ pt ∈ s.tableReset.slot i, pt.quality = .unset := by
      intro pt hpt
      rw [hslot, Option.mem_def, Option.map_eq_some_iff] at hpt
      obtain ⟨_, -, rfl⟩ := hpt
      rfl
    rw [State.lineLevel_safe hbound hunset]
    simp [hslot]

/-- Every ACCEPTED entry of a port is answered at a table reset, and nothing else of the port changes (R190). -/
theorem State.ports_tableReset (s : State) (q : Port) : s.tableReset.ports.get q = (s.ports.get q).afterReset :=
  PerPort.get_map _ s.ports q

/-- At the end of an event each attention line has the level that R182 asks for. -/
theorem State.ports_settle (s : State) (q : Port) :
    s.settle.ports.get q =
      { s.ports.get q with attn := attnLevel (s.settle.ports.get q) (s.settle.notices.get q) } := by
  simp [attnLevel]

/-- Settles O23: the owners of live state are cleared one by one as their rules say, and every ACCEPTED entry is answered. -/
theorem tableResetClearsLiveState : Obligations.TableResetClearsLiveState := by
  intro s p hdue
  have hexec : exec (.tableReset p) s = .next (s.answer p .ok .empty).tableReset.settle := by
    show execTableReset p s = _
    exact onRequest_due hdue _
  refine ⟨_, hexec, fun i => ?_, rfl, fun q => ⟨PerPort.get_all 0 q, PerPort.get_all none q⟩, fun q => ?_,
    fun n => ?_, rfl, rfl, fun n => ?_, fun n => ?_, fun q => ?_, rfl⟩
  · rw [State.slot_settle, State.slot_tableReset, State.slot_answer]
    rfl
  · have hunit : ((s.answer p .ok .empty).tableReset.settle.notices.get q) =
        (s.notices.get q).afterReset s.points := PerPort.get_map _ s.notices q
    refine ⟨by rw [hunit]; rfl, by rw [hunit]; rfl, fun i => ?_⟩
    rw [State.sub_settle, State.sub_tableReset, State.sub_answer, State.slot_answer]
  · exact mapTable_getElem _ s.orders n.val n.isLt
  · exact mapTable_getElem _ s.timers n.val n.isLt
  · exact State.outputs_tableReset (s.answer p .ok .empty) n
  · have hport : (s.answer p .ok .empty).tableReset.ports.get q =
        { s.ports.get q with
          window := (if q = p then answerOldest .ok .empty (s.ports.get q).window else (s.ports.get q).window).map
            Entry.afterReset } := by
      rw [State.ports_tableReset, State.answer_ports, PerPort.get_set]
      unfold PortState.afterReset
      split
      · subst_vars
        rfl
      · rfl
    refine (State.ports_settle _ q).trans ?_
    rw [hport]
    rfl

end Sys2Proof.Machine

namespace Sys2Proof.Machine

/-! ### CONVERSION_COMPLETION (R148 to R150) -/

/-- A trigger's delivery to the orders does not read the scanner. -/
theorem State.deliverToOrders_setScanner (w : State) (x : Option Scanner) (t : Trigger) :
    State.deliverToOrders { w with scanner := x } t = { w.deliverToOrders t with scanner := x } := by
  have hsame := State.startRun_congr
    (s := { w with orders := mapTable (fun o => o.map fun o => if o.hears t then o.accept else o) w.orders })
    (t := { w with
      scanner := x
      orders := mapTable (fun o => o.map fun o => if o.hears t then o.accept else o) w.orders }) rfl rfl
  rw [State.deliverToOrders_eq, State.deliverToOrders_eq w]
  unfold State.deliverToOrders
  rw [hsame.1, hsame.2]

/-- What follows a completion: the orders hear SCAN_END at a pass end alone, and the scanner moves on (R149, R150). -/
theorem State.nextConversion_eq (w : State) (current length : Nat) :
    w.nextConversion current length =
      { if current + 1 < length then w else w.deliverToOrders .scanEnd with
        scanner := w.scanner.map fun sc => if current + 1 < length then sc.convert (current + 1) else sc.countPass.afterPass } := by
  unfold State.nextConversion State.endPass
  split
  · rfl
  · dsimp only
    rw [State.deliverToOrders_setScanner]
    simp [Option.map_map, Function.comp_def]

/-- A raw reading is at a rail when its bits are all clear or all set (R149). -/
theorem atRail_eq (raw : BitVec 12) : atRail raw = (decide (raw = 0) || decide (raw = 4095)) := by
  rw [Bool.eq_iff_iff]
  simp only [atRail, Bool.or_eq_true, decide_eq_true_eq, BitVec.toNat_eq]
  rfl

/-- The write of a result at the destination that SCANNER holds, clamped whatever the limit action (R24, R149). -/
theorem State.scanWrite_held {s : State} {e : ScanEntry} {pt : Point} (hpt : s.slot e.dest = some pt)
    (hheld : pt.heldBy .scanner = true) (raw : BitVec 12) :
    s.scanWrite e raw =
      (s.store e.dest pt (pt.defn.fit (e.result raw))
          (writtenQuality (!pt.defn.inRange (e.result raw) || (e.rail && atRail raw))),
        s.writeRaises e.dest pt (pt.defn.fit (e.result raw))
          (writtenQuality (!pt.defn.inRange (e.result raw) || (e.rail && atRail raw))) (!pt.defn.inRange (e.result raw))) := by
  simp [State.scanWrite, State.scanTarget, hpt, hheld]

/-- A write does not trigger a scanner that selects no POINT source (R142). -/
theorem State.scanner_store {s : State} {sc : Scanner} (hsc : s.scanner = some sc) (htrigger : ∀ i, sc.trigger ≠ .point i)
    (i : PointIx) (pt : Point) (v : Word) (q : Quality) : (s.store i pt v q).scanner = some sc := by
  rw [State.store_eq, State.deliver_eq]
  simp [hsc, htrigger]

/-- The scanner after a pass end, by its mode and its pending pass (R150). -/
theorem Scanner.afterPass_countPass (sc : Scanner) :
    sc.countPass.afterPass =
      match sc.mode, sc.pendingPass with
      | .continuous, _ => { sc with passCount := sc.passCount + 1, current := 0 }
      | .single, true => { sc with passCount := sc.passCount + 1, current := 0, pendingPass := false }
      | .single, false => { sc with passCount := sc.passCount + 1, current := 0, phase := .armed } := by
  unfold Scanner.afterPass Scanner.countPass
  cases hm : sc.mode <;> cases hp : sc.pendingPass <;> rfl

/-- Settles O48: the write of the result, the move of the scanner and the causes of the write, in that order. -/
theorem conversionWritesItsResult : Obligations.ConversionWritesItsResult := by
  intro s raw sc e pt hheld hsc hphase htrigger he hpt hholds x clamped q w after pulsed
  have hq : writtenQuality (!pt.defn.inRange (e.result raw) || (e.rail && atRail raw)) = q := by
    rw [atRail_eq]
    rfl
  have hw : s.scanWrite e raw = (w, s.writeRaises e.dest pt (pt.defn.fit x) q clamped) := by
    rw [State.scanWrite_held hpt hholds, hq]
    rfl
  have hwsc : w.scanner = some sc := State.scanner_store hsc htrigger ..
  have hconv : s.converting = true := by simp [State.converting, hsc, hphase]
  have hnext : w.nextConversion sc.current sc.entries.length = { pulsed with scanner := some after } := by
    rw [State.nextConversion_eq, hwsc]
    by_cases hmore : sc.current + 1 < sc.entries.length
    · simp only [pulsed, after, hmore, if_true]
      rfl
    · have hafter : after = sc.countPass.afterPass := by
        simp only [after, hmore, if_false]
        exact (Scanner.afterPass_countPass sc).symm
      simp only [pulsed, hafter, hmore, if_false, Option.map_some]
  have hexec : exec (.conversionCompletion raw) s =
      .next (({ pulsed with scanner := some after } : State).raiseAll
        (s.writeRaises e.dest pt (pt.defn.fit x) q clamped)).settle := by
    show execConversionCompletion raw s = _
    unfold execConversionCompletion
    rw [hconv, event_due hheld, ← hnext]
    simp only [hsc, he, hw]
  have hpulsed : pulsed.notices = w.notices ∧ pulsed.ports = s.ports := by
    have hports : w.ports = s.ports := State.store_ports ..
    simp only [pulsed]
    split
    · exact ⟨rfl, hports⟩
    · exact ⟨State.deliverToOrders_notices .., (State.deliverToOrders_ports ..).trans hports⟩
  refine ⟨_, hexec, fun r => ?_, State.raiseAll_scanner .., fun r => ?_, ?_⟩
  · refine (State.ports_settle _ r).trans ?_
    rw [State.raiseAll_ports, ← hpulsed.2]
  · rw [State.settle_notices, State.raiseAll_notices_get _
      (({ pulsed with scanner := some after } : State).raiseAll (s.writeRaises e.dest pt (pt.defn.fit x) q clamped)).settle _
      (State.raiseAll_points ..) (State.raiseAll_orders ..)]
    show (pulsed.notices.get r).takeAll _ _ = _
    rw [hpulsed.1]
  · rw [State.raiseAll_eq]
    rfl

end Sys2Proof.Machine

namespace Sys2Proof.Machine

/-! ### Events that are not due (log 2) -/

/-- An event that is not due, or that comes while the part is held in reset, is passed over. -/
theorem event_passed {due : Bool} {s : State} (h : s.held = true ∨ due = false) (f : State → State) :
    event due s f = .next s := by
  unfold event
  rcases h with h | h <;> simp [h]

/-- A request that is not due is passed over, whatever request it is (log 1, log 2). -/
theorem exec_request_passed {c : Instr} {p : Port} {r : Request} {s : State} (hc : c.request? = some (p, r)) (h : ¬ s.Due p r) :
    exec c s = .next s := by
  cases c with
  | coldReset | selectFalling | exchangeEnd | tick | tickAgeing | pointStale | claimArbiterTick | leaseLapse | waitExpiry
  | timerTick | timerExpiry | lineEdge | orderCopy | conversionCompletion | coldResetEnd => cases hc
  | _ =>
    cases hc
    simp only [exec, execRead, execWrite, execDefine, execUndefine, execTableReset, execClaim, execRelease, execRenew,
      execWithdraw, execBatchOpen, execBatchPut, execBatchCommit, execBatchDiscard, execSubscribe, execUnsubscribe, execFetch,
      execOrderDefine, execOrderArm, execOrderDisarm, execOrderFire, execOrderQuery, execOrderClear, execScanDefinePart,
      execScanDefine, execScanArm, execScanStart, execScanStop, execScanDisarm, execScanQuery, execTickSet, execTimerSet,
      execTimerStop, execLineSet, execOutputBind, execPortReset, execForcePortReset, execConfigGrant, execConfigRevoke,
      execAttnSet, execStatus, onRequest_not_due h]

/-! The commands that are not requests, each with the condition under which its event is due. -/

section
variable {s : State}

theorem exec_selectFalling_passed {p : Port} (k : Level)
    (h : s.held = true ∨ (s.ports.get p).exchange.isNone = false) : exec (.selectFalling p k) s = .next s :=
  event_passed h fun s => s.beginExchange p k

theorem exec_exchangeEnd_passed {p : Port} (bytes : List Byte) (spareBits : Fin 8)
    (h : s.held = true ∨ (s.ports.get p).exchange.isSome = false) : exec (.exchangeEnd p bytes spareBits) s = .next s := by
  show execExchangeEnd p bytes spareBits s = _
  exact event_passed h _

theorem exec_tick_passed (h : s.held = true ∨ s.tickGen.running = false) : exec .tick s = .next s := event_passed h _

theorem exec_tickAgeing_passed (h : s.held = true ∨ s.ageingDue = false) : exec .tickAgeing s = .next s := event_passed h _

theorem exec_pointStale_passed {i : PointIx} (h : s.held = true ∨ (s.ageingDue && s.goesStale i) = false) :
    exec (.pointStale i) s = .next s := event_passed h _

theorem exec_claimArbiterTick_passed (h : s.held = true ∨ s.arbiterDue = false) : exec .claimArbiterTick s = .next s :=
  event_passed h _

theorem exec_leaseLapse_passed {i : PointIx}
    (h : s.held = true ∨ (s.arbiterDue && (s.slot i).any fun pt => pt.lapsing.isSome) = false) :
    exec (.leaseLapse i) s = .next s := event_passed h _

theorem exec_waitExpiry_passed {i : PointIx} {p : Port}
    (h : s.held = true ∨ (s.arbiterDue && (s.slot i).any fun pt => pt.expiring.contains p) = false) :
    exec (.waitExpiry i p) s = .next s := event_passed h _

theorem exec_timerTick_passed {n : Fin 4} (h : s.held = true ∨ s.timerDue n = false) : exec (.timerTick n) s = .next s := by
  show execTimerTick n s = _
  exact event_passed h _

theorem exec_timerExpiry_passed {n : Fin 4} (h : s.held = true ∨ (s.timerDue n && s.timers[n.val].expires) = false) :
    exec (.timerExpiry n) s = .next s := by
  show execTimerExpiry n s = _
  exact event_passed h _

theorem exec_lineEdge_passed {n : Fin 8} {level : Level}
    (h : s.held = true ∨ decide (s.lines[n.val].settled ≠ level) = false) : exec (.lineEdge n level) s = .next s := by
  show execLineEdge n level s = _
  exact event_passed h _

theorem exec_orderCopy_passed (h : s.held = true ∨ s.executor.isSome = false) : exec .orderCopy s = .next s := by
  show execOrderCopy s = _
  exact event_passed h _

theorem exec_conversionCompletion_passed (raw : BitVec 12) (h : s.held = true ∨ s.converting = false) :
    exec (.conversionCompletion raw) s = .next s := by
  show execConversionCompletion raw s = _
  exact event_passed h _

end

/-- While the part is held in reset every command but COLD_RESET and COLD_RESET_END is passed over (log 4). -/
theorem exec_held {s : State} (hheld : s.held = true) {c : Instr} (hreset : c ≠ .coldReset)
    (hend : ∀ pins, c ≠ .coldResetEnd pins) : exec c s = .next s := by
  cases c with
  | coldReset => exact absurd rfl hreset
  | coldResetEnd pins => exact absurd rfl (hend pins)
  | selectFalling p k => exact exec_selectFalling_passed k (.inl hheld)
  | exchangeEnd p bytes spareBits => exact exec_exchangeEnd_passed bytes spareBits (.inl hheld)
  | tick => exact exec_tick_passed (.inl hheld)
  | tickAgeing => exact exec_tickAgeing_passed (.inl hheld)
  | pointStale => exact exec_pointStale_passed (.inl hheld)
  | claimArbiterTick => exact exec_claimArbiterTick_passed (.inl hheld)
  | leaseLapse => exact exec_leaseLapse_passed (.inl hheld)
  | waitExpiry => exact exec_waitExpiry_passed (.inl hheld)
  | timerTick => exact exec_timerTick_passed (.inl hheld)
  | timerExpiry => exact exec_timerExpiry_passed (.inl hheld)
  | lineEdge => exact exec_lineEdge_passed (.inl hheld)
  | orderCopy => exact exec_orderCopy_passed (.inl hheld)
  | conversionCompletion raw => exact exec_conversionCompletion_passed raw (.inl hheld)
  | _ => exact exec_request_passed rfl fun hdue => nomatch hdue.1.symm.trans hheld

/-- Settles O3: each command's event is not due, so it is passed over. -/
theorem commandNotDueIsPassedOver : Obligations.CommandNotDueIsPassedOver := by
  intro s
  have timer : ∀ n : Fin 4, s.timerDue n = false → exec (.timerTick n) s = .next s ∧ exec (.timerExpiry n) s = .next s :=
    fun n h => ⟨exec_timerTick_passed (.inr h), exec_timerExpiry_passed (.inr (by rw [h]; rfl))⟩
  have ageing : s.ageingDue = false → exec .tickAgeing s = .next s ∧ ∀ i, exec (.pointStale i) s = .next s :=
    fun h => ⟨exec_tickAgeing_passed (.inr h), fun i => exec_pointStale_passed (.inr (by rw [h]; rfl))⟩
  have arbiter : s.arbiterDue = false → exec .claimArbiterTick s = .next s ∧ (∀ i, exec (.leaseLapse i) s = .next s) ∧
      ∀ i p, exec (.waitExpiry i p) s = .next s :=
    fun h => ⟨exec_claimArbiterTick_passed (.inr h), fun i => exec_leaseLapse_passed (.inr (by rw [h]; rfl)),
      fun i p => exec_waitExpiry_passed (.inr (by rw [h]; rfl))⟩
  refine ⟨fun c p r => exec_request_passed, fun hheld c => exec_held hheld, fun hheld pins => ?_, fun p k h => ?_,
    fun p bs n h => ?_, fun hstop => ?_, fun h => ageing ?_, fun h => arbiter ?_, fun n h => timer n ?_, fun i h => ?_,
    fun i h => ?_, fun i p h => ?_, fun n h => ?_, fun h => ?_, fun h raw => ?_, fun n => ?_⟩
  · show execColdResetEnd pins s = _
    simp [execColdResetEnd, hheld]
  · exact exec_selectFalling_passed k (.inr (by simpa using h))
  · exact exec_exchangeEnd_passed bs n (.inr (by simp [h]))
  · obtain ⟨hage, hstale⟩ := ageing (by simp [State.ageingDue, hstop])
    obtain ⟨harb, hlapse, hexpiry⟩ := arbiter (by simp [State.arbiterDue, hstop])
    have hstopped := fun n => timer n (by simp [State.timerDue, hstop])
    exact ⟨exec_tick_passed (.inr hstop), hage, harb, hstale, hlapse, hexpiry, fun n => (hstopped n).1, fun n => (hstopped n).2⟩
  · simp [State.ageingDue, h]
  · simp [State.arbiterDue, h]
  · rcases h with h | h <;> simp [State.timerDue, h]
  · exact exec_pointStale_passed (.inr (by simp [h]))
  · refine exec_leaseLapse_passed (.inr ?_)
    cases hpt : s.slot i with
    | none => simp
    | some pt => simp [h pt hpt]
  · refine exec_waitExpiry_passed (.inr ?_)
    cases hpt : s.slot i with
    | none => simp
    | some pt => simp [h pt hpt]
  · have hmore : s.timers[n.val].expires = false := by
      unfold Timer.expires
      simpa using h
    exact exec_timerExpiry_passed (.inr (by rw [hmore, Bool.and_false]))
  · exact exec_orderCopy_passed (.inr (by rw [h]; rfl))
  · exact exec_conversionCompletion_passed raw (.inr h)
  · exact exec_lineEdge_passed (.inr (by simp))

end Sys2Proof.Machine

namespace Sys2Proof.Machine

/-! ### The reset state, block by block (R30, R57, R58, R91, R102, R111, R140, R157, R160, R165, R192, R200) -/

@[simp] theorem State.slot_reset (i : PointIx) : State.reset.slot i = none := Vector.getElem_replicate _

@[simp] theorem State.order_reset (n : OrderIx) : State.reset.order n = none := Vector.getElem_replicate _

@[simp] theorem State.notices_reset (p : Port) : State.reset.notices.get p = .reset := PerPort.get_all _ p

@[simp] theorem State.sub_reset (p : Port) (i : PointIx) : State.reset.sub p i = none := by
  unfold State.sub
  rw [State.notices_reset]
  exact Vector.getElem_replicate _

@[simp] theorem State.ports_reset (p : Port) : State.reset.ports.get p = .reset := PerPort.get_all _ p

@[simp] theorem State.batches_reset (p : Port) : State.reset.batches.get p = none := PerPort.get_all _ p

@[simp] theorem State.scanner_reset : State.reset.scanner = none := rfl

theorem State.outputs_reset (n : Fin 8) : State.reset.outputs[n.val] = .reset := Vector.getElem_replicate _

theorem State.timers_reset (n : Fin 4) : State.reset.timers[n.val] = .reset := Vector.getElem_replicate _

theorem State.lines_reset (n : Fin 8) : State.reset.lines[n.val] = .reset := Vector.getElem_replicate _

/-- No party holds a point in the reset state. -/
theorem State.heldAt_reset (i : PointIx) (w : Party) : State.reset.heldAt i w = false := by simp [State.heldAt]

/-- The status bytes of a port in the reset state: RESET set, and port A in the configuration set (R192). -/
theorem portStatusBytes_reset (q : List Instr) (p : Port) :
    portStatusBytes { State.reset with pending := q } p = [0x00, if p = .a then 0x60 else 0x20, 0x00] := by
  have hpending : portStatusBytes { State.reset with pending := q } p = portStatusBytes State.reset p := rfl
  rw [hpending]
  cases p <;> decide

/-- The settled levels at the end of cold reset are those of the pins (R165). -/
theorem linesFromPins_getElem (lines : Vector InLine 8) (pins : BitVec 8) (n : Fin 8) :
    (linesFromPins lines pins)[n.val] =
      { lines[n.val] with settled := if pins.getLsbD n.val then .high else .low } := by
  unfold linesFromPins
  rw [zipTable_getElem]
  simp [Vector.getElem_mk]

/-- Settles O4: COLD_RESET leaves the reset state, and COLD_RESET_END starts the interval and samples the pins. -/
theorem coldResetAndItsEnd : Obligations.ColdResetAndItsEnd := by
  refine ⟨fun s => ⟨_, rfl, rfl, rfl, State.slot_reset, rfl, fun p => ⟨PerPort.get_all _ p, State.batches_reset p⟩, fun p => ?_,
    State.outputs_reset, State.order_reset, rfl, rfl, rfl, rfl, fun n => ?_, fun n => ?_, fun p => ?_, rfl,
    portStatusBytes_reset s.pending⟩, fun s pins hheld => ?_⟩
  · have hunit : ({ State.reset with pending := s.pending } : State).notices.get p = .reset := State.notices_reset p
    rw [hunit]
    exact ⟨State.sub_reset p, rfl, rfl⟩
  · have htimer : ({ State.reset with pending := s.pending } : State).timers[n.val] = .reset := State.timers_reset n
    rw [htimer]
    exact ⟨rfl, rfl, rfl, rfl⟩
  · exact congrArg InLine.edge (State.lines_reset n)
  · have hport : ({ State.reset with pending := s.pending } : State).ports.get p = .reset := State.ports_reset p
    rw [hport]
    exact ⟨rfl, rfl, rfl, rfl, rfl, rfl, rfl, rfl⟩
  · have hexec : exec (.coldResetEnd pins) s = .next (s.leaveReset pins).settle := by
      show execColdResetEnd pins s = _
      rw [execColdResetEnd, if_pos hheld]
    exact ⟨_, hexec, rfl, rfl, linesFromPins_getElem s.lines pins, State.ports_settle (s.leaveReset pins), rfl⟩

/-- A notice unit with nothing in it is sound. -/
theorem NoticeUnit.sound_reset : NoticeUnit.reset.sound :=
  ⟨Nat.zero_le _, List.nodup_nil, List.Pairwise.nil, fun h => absurd rfl h, nofun, nofun, nofun⟩

/-- A port after cold reset is sound. -/
theorem PortState.sound_reset : PortState.reset.sound .reset :=
  ⟨Nat.zero_le _, fun _ h => absurd h List.not_mem_nil, Nat.zero_le _, by decide, fun x (h : none = some x) => nomatch h⟩

/-- Settles O5: in the reset state every slot, order, window and queue is empty, so that each invariant holds of it. -/
theorem resetStateIsSound : Obligations.ResetStateIsSound := by
  have hpoints : ∀ P, State.reset.everyPoint P := fun P i pt hpt => by simp at hpt
  refine ⟨hpoints _, hpoints _, hpoints _, claimsAndCounts_kept.reset.2, fun p b hb => ?_, fun p => ?_, fun p i hi => ?_,
    fun n => ?_, ⟨fun n o ho => ?_, fun n o ho => ?_⟩, fun n i => ?_, nofun, fun i => ?_, ?_, fun p => ?_, rfl⟩
  · simp at hb
  · rw [State.notices_reset]
    exact NoticeUnit.sound_reset
  · simp at hi
  · rw [State.outputs_reset]
    rfl
  · simp at ho
  · simp at ho
  · simp [State.heldAt_reset, State.isDestOf]
  · simp [State.heldAt_reset, State.isScanned]
  · refine ⟨by decide, by decide, nofun, fun _ => ⟨rfl, rfl⟩, fun n => ?_⟩
    rw [State.timers_reset]
    exact ⟨by decide, by decide, by decide, nofun, fun _ => rfl⟩
  · rw [State.ports_reset, State.notices_reset]
    exact PortState.sound_reset

end Sys2Proof.Machine

/-! PROOFS. Batches, subscriptions, the time base and the configuration set: what each command can change at all, read off in one
place; the four invariants, each with what its own operations keep; then the requests of chapter 3. -/

namespace Sys2Proof.Machine

/-! ### What each command can change -/

/-- The state after a command, with the fields that the command can change put back as they were before it. -/
def putBack (c : Instr) (s t : State) : State :=
  match c with
  | .coldReset => { s with pending := t.pending }
  | .selectFalling .. | .exchangeEnd .. | .read .. | .orderQuery .. | .scanDefinePart .. | .scanQuery .. | .attnSet ..
  | .status .. => { t with ports := s.ports }
  | .write .. =>
    { t with points := s.points, counts := s.counts, notices := s.notices, outputs := s.outputs, orders := s.orders,
             executor := s.executor, scanner := s.scanner, ports := s.ports }
  | .define .. | .undefine .. => { t with points := s.points, notices := s.notices, outputs := s.outputs, ports := s.ports }
  | .tableReset .. =>
    { t with points := s.points, epoch := s.epoch, counts := s.counts, batches := s.batches, notices := s.notices,
             outputs := s.outputs, orders := s.orders, executor := s.executor, scanner := s.scanner, timers := s.timers,
             ports := s.ports }
  | .claim .. | .withdraw .. => { t with points := s.points, counts := s.counts, ports := s.ports }
  | .release .. => { t with points := s.points, counts := s.counts, notices := s.notices, ports := s.ports }
  | .renew .. => { t with points := s.points, ports := s.ports }
  | .tick => { t with tickGen := s.tickGen, timers := s.timers, ports := s.ports }
  | .tickAgeing | .pointStale .. =>
    { t with points := s.points, outputs := s.outputs, notices := s.notices, tickGen := s.tickGen, ports := s.ports }
  | .claimArbiterTick | .leaseLapse .. | .waitExpiry .. =>
    { t with points := s.points, counts := s.counts, notices := s.notices, tickGen := s.tickGen, ports := s.ports }
  | .timerTick .. | .timerExpiry .. =>
    { t with timers := s.timers, orders := s.orders, executor := s.executor, scanner := s.scanner, ports := s.ports }
  | .lineEdge .. =>
    { t with lines := s.lines, orders := s.orders, executor := s.executor, scanner := s.scanner, ports := s.ports }
  | .batchOpen .. | .batchPut .. | .batchDiscard .. => { t with batches := s.batches, ports := s.ports }
  | .batchCommit .. =>
    { t with points := s.points, counts := s.counts, notices := s.notices, outputs := s.outputs, orders := s.orders,
             executor := s.executor, scanner := s.scanner, batches := s.batches, ports := s.ports }
  | .subscribe .. | .unsubscribe .. | .fetch .. => { t with notices := s.notices, ports := s.ports }
  | .orderDefine .. | .orderClear .. => { t with orders := s.orders, ports := s.ports }
  | .orderArm .. => { t with points := s.points, orders := s.orders, ports := s.ports }
  | .orderDisarm .. =>
    { t with points := s.points, orders := s.orders, executor := s.executor, notices := s.notices, ports := s.ports }
  | .orderFire .. => { t with orders := s.orders, executor := s.executor, ports := s.ports }
  | .orderCopy | .conversionCompletion .. =>
    { t with points := s.points, notices := s.notices, outputs := s.outputs, orders := s.orders, executor := s.executor,
             scanner := s.scanner, ports := s.ports }
  | .scanDefine .. | .scanStart .. | .scanStop .. => { t with scanner := s.scanner, ports := s.ports }
  | .scanArm .. => { t with points := s.points, scanner := s.scanner, ports := s.ports }
  | .scanDisarm .. => { t with points := s.points, scanner := s.scanner, notices := s.notices, ports := s.ports }
  | .tickSet .. => { t with tickGen := s.tickGen, ports := s.ports }
  | .timerSet .. | .timerStop .. => { t with timers := s.timers, ports := s.ports }
  | .lineSet .. => { t with lines := s.lines, ports := s.ports }
  | .outputBind .. => { t with outputs := s.outputs, ports := s.ports }
  | .portReset .. | .forcePortReset .. =>
    { t with points := s.points, counts := s.counts, batches := s.batches, notices := s.notices, ports := s.ports }
  | .configGrant .. | .configRevoke .. => { t with config := s.config, ports := s.ports }
  | .coldResetEnd .. => { t with held := s.held, tickGen := s.tickGen, lines := s.lines, ports := s.ports }

/-- With what it can change put back, a command has changed nothing: the footprints of all commands as one law. -/
theorem exec_putBack {c : Instr} {s t : State} (h : exec c s = .next t) : putBack c s t = s := by
  cases c with
  | coldReset =>
    cases h
    rfl
  | selectFalling => exact execSelectFalling_frame h
  | exchangeEnd => exact execExchangeEnd_frame h
  | read => exact execRead_frame h
  | write => exact execWrite_frame h
  | define => exact execDefine_frame h
  | undefine => exact execUndefine_frame h
  | tableReset => exact execTableReset_frame h
  | claim => exact execClaim_frame h
  | release => exact execRelease_frame h
  | renew => exact execRenew_frame h
  | withdraw => exact execWithdraw_frame h
  | tick => exact execTick_frame h
  | tickAgeing => exact execTickAgeing_frame h
  | pointStale => exact execPointStale_frame h
  | claimArbiterTick => exact execClaimArbiterTick_frame h
  | leaseLapse => exact execLeaseLapse_frame h
  | waitExpiry => exact execWaitExpiry_frame h
  | timerTick => exact execTimerTick_frame h
  | timerExpiry => exact execTimerExpiry_frame h
  | lineEdge => exact execLineEdge_frame h
  | batchOpen => exact execBatchOpen_frame h
  | batchPut => exact execBatchPut_frame h
  | batchCommit => exact execBatchCommit_frame h
  | batchDiscard => exact execBatchDiscard_frame h
  | subscribe => exact execSubscribe_frame h
  | unsubscribe => exact execUnsubscribe_frame h
  | fetch => exact execFetch_frame h
  | orderDefine => exact execOrderDefine_frame h
  | orderArm => exact execOrderArm_frame h
  | orderDisarm => exact execOrderDisarm_frame h
  | orderFire => exact execOrderFire_frame h
  | orderQuery => exact execOrderQuery_frame h
  | orderClear => exact execOrderClear_frame h
  | orderCopy => exact execOrderCopy_frame h
  | scanDefinePart => exact execScanDefinePart_frame h
  | scanDefine => exact execScanDefine_frame h
  | scanArm => exact execScanArm_frame h
  | scanStart => exact execScanStart_frame h
  | scanStop => exact execScanStop_frame h
  | scanDisarm => exact execScanDisarm_frame h
  | scanQuery => exact execScanQuery_frame h
  | conversionCompletion => exact execConversionCompletion_frame h
  | tickSet => exact execTickSet_frame h
  | timerSet => exact execTimerSet_frame h
  | timerStop => exact execTimerStop_frame h
  | lineSet => exact execLineSet_frame h
  | outputBind => exact execOutputBind_frame h
  | portReset => exact execPortReset_frame h
  | forcePortReset => exact execForcePortReset_frame h
  | configGrant => exact execConfigGrant_frame h
  | configRevoke => exact execConfigRevoke_frame h
  | attnSet => exact execAttnSet_frame h
  | status => exact execStatus_frame h
  | coldResetEnd => exact execColdResetEnd_frame h

end Sys2Proof.Machine

namespace Sys2Proof.Machine

/-! ### One staged value (R62) -/

/-- A staged value for a point of the batch replaces that point's value in place. -/
theorem Batch.put_of_mem {b : Batch} {e : BatchEntry} (h : e.point ∈ b.map BatchEntry.point) :
    b.put e = b.map fun x => if x.point = e.point then e else x := by
  have hany : (b.any fun x => x.point = e.point) = true := by simpa using h
  exact if_pos hany

/-- A staged value for another point joins at the end. -/
theorem Batch.put_of_not_mem {b : Batch} {e : BatchEntry} (h : e.point ∉ b.map BatchEntry.point) : b.put e = b ++ [e] := by
  have hany : ¬ (b.any fun x => x.point = e.point) = true := by simpa using h
  exact if_neg hany

/-- The points of a batch, in entry order, after one staged value. -/
theorem Batch.points_put (b : Batch) (e : BatchEntry) :
    (b.put e).map BatchEntry.point =
      if e.point ∈ b.map BatchEntry.point then b.map BatchEntry.point else b.map BatchEntry.point ++ [e.point] := by
  split
  · rename_i h
    rw [Batch.put_of_mem h, List.map_map]
    refine List.map_congr_left fun x _ => ?_
    show (if x.point = e.point then e else x).point = x.point
    split
    · exact Eq.symm ‹_›
    · rfl
  · rename_i h
    rw [Batch.put_of_not_mem h, List.map_append]
    rfl

/-- Staging values names no point twice. -/
theorem Batch.nodup_foldl_put (es : List BatchEntry) {b : Batch} (h : (b.map BatchEntry.point).Nodup) :
    ((es.foldl Batch.put b).map BatchEntry.point).Nodup := by
  induction es generalizing b with
  | nil => exact h
  | cons e es ih =>
    refine ih ?_
    rw [Batch.points_put]
    split
    · exact h
    · rename_i hnew
      exact List.nodup_append.2 ⟨h, List.nodup_cons.2 ⟨List.not_mem_nil, List.nodup_nil⟩, fun x hx y hy => by
        rintro rfl
        exact hnew (List.mem_singleton.1 hy ▸ hx)⟩

/-! ### The open batches through the commands (R58) -/

/-- One entry of a commit leaves the batches alone. -/
theorem State.commitEntry_batches (s : State) (e : BatchEntry) : (s.commitEntry e).batches = s.batches := by
  have h := congrArg State.batches (State.commitEntry_frame s e)
  exact h

/-- A commit closes the batch of its port, and no other (R66). -/
theorem State.commit_batches (s : State) (p : Port) (b : Batch) (r : Bool) : (s.commit p b r).batches = s.batches.set p none := by
  show PerPort.set (State.batches _) p none = _
  rw [foldl_field State.batches _ (fun s i => State.releasePoint_batches s p i),
    foldl_field State.batches _ State.commitEntry_batches]

/-- A port reset discards the batch of its port, and no other (R69). -/
theorem State.portReset_batches (s : State) (p : Port) (w : List Entry) : (s.portReset p w).batches = s.batches.set p none := by
  unfold State.portReset
  rw [State.raiseAll_batches]
  rfl

section
variable {s t : State}

/-- Batches that stay as they are stay sound. -/
theorem State.BatchesSound.same (hs : s.BatchesSound) (ht : t.batches = s.batches) : t.BatchesSound := fun p b hb =>
  hs p b (by rwa [ht] at hb)

/-- The end of an event leaves the batches alone. -/
theorem State.BatchesSound.settled (hs : s.BatchesSound) : s.settle.BatchesSound := hs.same rfl

/-- An answer and the end of its event leave the batches alone. -/
theorem State.BatchesSound.replied {p : Port} {st : Status} {b : Body} (hs : s.BatchesSound) :
    (s.answer p st b).settle.BatchesSound := hs.same rfl

/-- One port's batch replaced by a sound one, or closed. -/
theorem State.BatchesSound.ofSet {p : Port} {x : Option Batch} (hs : s.BatchesSound) (ht : t.batches = s.batches.set p x)
    (hx : ∀ b ∈ x, b.sound) : t.BatchesSound := by
  intro q b hb
  rw [ht, PerPort.get_set] at hb
  split at hb
  · exact hx b hb
  · exact hs q b hb

/-- One port's batch closed. -/
theorem State.BatchesSound.ofClose {p : Port} (hs : s.BatchesSound) (ht : t.batches = s.batches.set p none) : t.BatchesSound :=
  hs.ofSet ht fun _ h => nomatch h

/-- Batches all closed. -/
theorem State.batchesSound_none (ht : t.batches = .all none) : t.BatchesSound := by
  intro p b hb
  rw [ht, PerPort.get_all] at hb
  cases hb

end

/-- Every command keeps the open batches sound: they are staged within the bounds, or closed. -/
theorem batchesSound_exec (c : Instr) (s t : State) (hs : s.BatchesSound) (h : exec c s = .next t) : t.BatchesSound := by
  have hbatches := congrArg State.batches (exec_putBack h)
  cases c with
  | coldReset =>
    cases h
    exact State.batchesSound_none rfl
  | tableReset p =>
    unfold exec execTableReset at h
    exact onRequest_keeps hs (fun _ => State.batchesSound_none rfl) h
  | batchOpen p =>
    unfold exec execBatchOpen at h
    refine onRequest_keeps hs (fun _ => ?_) h
    split
    · exact hs.replied
    · refine hs.ofSet (x := some []) rfl ?_
      rintro _ ⟨⟩
      exact ⟨Nat.zero_le _, List.nodup_nil⟩
  | batchPut p args =>
    unfold exec execBatchPut at h
    refine onRequest_keeps hs (fun _ => ?_) h
    split
    · exact hs.replied
    · rename_i b hb
      split
      · exact hs.replied
      · rename_i es _
        dsimp only
        split
        · exact hs.replied
        · rename_i hfits
          refine hs.ofSet (x := some (es.foldl Batch.put b)) rfl ?_
          rintro _ ⟨⟩
          exact ⟨Nat.le_of_not_lt hfits, Batch.nodup_foldl_put es (hs p b hb).2⟩
  | batchCommit p release =>
    unfold exec execBatchCommit at h
    refine onRequest_keeps hs (fun _ => ?_) h
    split
    · exact hs.replied
    · split
      · exact hs.replied
      · exact (hs.ofClose (State.commit_batches s p _ release)).replied
  | batchDiscard p =>
    unfold exec execBatchDiscard at h
    refine onRequest_keeps hs (fun _ => ?_) h
    split
    · exact hs.replied
    · exact (hs.ofClose (State.setBatch_batches s p none)).replied
  | portReset p =>
    unfold exec execPortReset at h
    have hclosed : (s.resetOwnPort p).BatchesSound := hs.ofClose (State.portReset_batches s p _)
    refine onRequest_keeps hs (fun _ => ?_) h
    exact hclosed.settled
  | forcePortReset p target =>
    unfold exec execForcePortReset at h
    refine onRequest_keeps hs (fun _ => ?_) h
    split
    · exact hs.replied
    · split
      · exact (hs.ofClose (State.portReset_batches s p _)).settled
      · exact (hs.ofClose (State.portReset_batches s _ [])).replied
  | _ => exact hs.same hbatches

end Sys2Proof.Machine

namespace Sys2Proof.Machine

/-! ### The subscriptions after each operation (R71) -/

/-- Taking a cause leaves the subscriptions alone. -/
theorem NoticeUnit.take_subs (u : NoticeUnit) (x : Subject) (c : Cause) (st : SubjectState) : (u.take x c st).subs = u.subs := by
  unfold NoticeUnit.take
  split
  · rfl
  · split <;> rfl

/-- Taking causes leaves the subscriptions alone. -/
theorem NoticeUnit.takeAll_subs (u : NoticeUnit) (t : State) (cs : List (Subject × Cause)) : (u.takeAll t cs).subs = u.subs := by
  unfold NoticeUnit.takeAll
  induction cs generalizing u with
  | nil => rfl
  | cons c cs ih => exact (ih _).trans (NoticeUnit.take_subs ..)

/-- Two states whose notice units have the same subscriptions have the same subscriptions. -/
theorem State.sub_congr {s t : State} {q : Port} (h : (t.notices.get q).subs = (s.notices.get q).subs) (i : PointIx) :
    t.sub q i = s.sub q i := by
  unfold State.sub
  simp only [h]

@[simp] theorem State.sub_raiseAll (s : State) (rs : List Raise) (q : Port) (i : PointIx) :
    (s.raiseAll rs).sub q i = s.sub q i := by
  refine State.sub_congr ?_ i
  rw [State.raiseAll_eq, PerPort.get_map, NoticeUnit.takeAll_subs]

@[simp] theorem State.sub_raise (s : State) (p : Port) (x : Subject) (c : Cause) (q : Port) (i : PointIx) :
    (s.raise p x c).sub q i = s.sub q i := State.sub_raiseAll s [⟨p, x, c⟩] q i

@[simp] theorem State.sub_setSub (s : State) (p : Port) (j : PointIx) (x : Option Sub) (q : Port) (i : PointIx) :
    (s.setSub p j x).sub q i = if q = p ∧ i = j then x else s.sub q i := by
  unfold State.sub
  simp only [State.setSub_notices, PerPort.get_set]
  by_cases hq : q = p
  · subst hq
    simp only [if_true, true_and, Vector.getElem_set, Fin.ext_iff, eq_comm (a := j.val)]
  · simp [hq]

/-- Every subscription to the written point stays (R74, R75). -/
theorem State.isSome_sub_store (s : State) (j : PointIx) (pt : Point) (v : Word) (w : Quality) (q : Port) (i : PointIx) :
    ((s.store j pt v w).sub q i).isSome = (s.sub q i).isSome := by
  have hsub : (s.store j pt v w).sub q i = (s.followSubs j pt.defn.kind v).sub q i := by
    refine State.sub_congr ?_ i
    rw [State.store_eq]
  rw [hsub]
  unfold State.sub
  simp only [State.followSubs_notices, PerPort.get_map, Vector.getElem_set]
  split
  · rename_i hij
    simp [hij]
  · rfl

@[simp] theorem State.sub_releasePoint (s : State) (p : Port) (j : PointIx) (q : Port) (i : PointIx) :
    (s.releasePoint p j).sub q i = s.sub q i := by
  unfold State.releasePoint
  split
  · rfl
  · rw [State.sub_raiseAll]
    rfl

/-- Every subscription to a slot that is replaced ends (R80). -/
theorem State.sub_replaceSlot (s : State) (j : PointIx) (x : Option Point) (q : Port) (i : PointIx) :
    (s.replaceSlot j x).sub q i = if i = j then none else s.sub q i := by
  have hsub : (s.replaceSlot j x).sub q i = (s.dropSubs j).sub q i := by
    refine State.sub_congr ?_ i
    rw [State.replaceSlot_eq, PerPort.get_map, NoticeUnit.takeAll_subs]
  rw [hsub]
  unfold State.sub
  simp only [State.dropSubs_notices, PerPort.get_map, Vector.getElem_set, Fin.ext_iff, eq_comm (a := j.val)]

@[simp] theorem State.sub_ageTable (s : State) (q : Port) (i : PointIx) : s.ageTable.sub q i = s.sub q i := by
  unfold State.ageTable
  exact State.sub_raiseAll ..

@[simp] theorem State.sub_arbiterTick (s : State) (q : Port) (i : PointIx) : s.arbiterTick.sub q i = s.sub q i := by
  unfold State.arbiterTick
  exact State.sub_raiseAll ..

/-- A port reset ends every subscription of its port, and no other (R92). -/
theorem State.sub_portReset (s : State) (p : Port) (w : List Entry) (q : Port) (i : PointIx) :
    (s.portReset p w).sub q i = if q = p then none else s.sub q i := by
  unfold State.portReset
  rw [State.sub_raiseAll]
  unfold State.sub
  simp only [State.setPort_notices, State.setNotices_notices, PerPort.get_set]
  split
  · exact Vector.getElem_replicate _
  · rfl

/-! ### The slots after each operation: which are defined -/

/-- A CLAIM leaves the defined slots defined. -/
theorem State.isSome_slot_takeClaim (s : State) (p : Port) (args : ClaimArgs) (mode : ClaimMode) (ixs : List PointIx)
    (i : PointIx) : ((s.takeClaim p args mode ixs).1.slot i).isSome = (s.slot i).isSome := by
  obtain h | ⟨j, pt, _, w, hpt, -, -, -, -, -, -, -, -, h⟩ | ⟨-, -, h⟩ := s.takeClaim_cases p args mode ixs
  · rw [h]
  · rw [h, State.slot_setCount, State.slot_modifySlot]
    split
    · rename_i hij
      rw [hij, Option.isSome_map]
    · rfl
  · rw [h, State.slot_grantClaim]
    split
    · exact Option.isSome_map
    · rfl

section
variable {s t : State}

/-- Subscriptions stay sound while no slot loses its point and no port gains a subscription. -/
theorem State.SubsSound.mono (hs : s.SubsSound) (hslot : ∀ i, (s.slot i).isSome → (t.slot i).isSome)
    (hsub : ∀ q i, (t.sub q i).isSome → (s.sub q i).isSome) : t.SubsSound := fun q i h => hslot i (hs q i (hsub q i h))

/-- Subscriptions are sound by the points and the notice units alone. -/
theorem State.SubsSound.same (hs : s.SubsSound) (hp : t.points = s.points) (hn : t.notices = s.notices) : t.SubsSound :=
  hs.mono (fun i h => by rwa [State.slot_congr hp]) fun q i h => by rwa [State.sub_congr (s := s) (by rw [hn])] at h

/-- A change of every slot by an operation on its point, under which the subscriptions stay. -/
theorem State.SubsSound.ofMap {f : Point → Point} (hs : s.SubsSound) (hslot : ∀ i, t.slot i = (s.slot i).map f)
    (hsub : ∀ q i, t.sub q i = s.sub q i) : t.SubsSound :=
  hs.mono (fun i h => by rwa [hslot, Option.isSome_map]) fun q i h => by rwa [hsub] at h

/-- A change of the slots of a list by an operation on their points, under which the subscriptions stay. -/
theorem State.SubsSound.ofList {f : Point → Point} {l : List PointIx} (hs : s.SubsSound)
    (hslot : ∀ i, t.slot i = if i ∈ l then (s.slot i).map f else s.slot i) (hsub : ∀ q i, t.sub q i = s.sub q i) :
    t.SubsSound := by
  refine hs.mono (fun i h => ?_) fun q i h => by rwa [hsub] at h
  rw [hslot]
  split
  · rwa [Option.isSome_map]
  · exact h

/-- A change of one slot by an operation on its point, under which the subscriptions stay. -/
theorem State.SubsSound.ofModify {f : Point → Point} (hs : s.SubsSound) (i : PointIx) : (s.modifySlot i f).SubsSound := by
  refine hs.ofList (f := f) (l := [i]) (fun j => ?_) fun q j => rfl
  rw [State.slot_modifySlot]
  by_cases hj : j = i <;> simp [hj]

/-- The end of an event leaves points and subscriptions alone. -/
theorem State.SubsSound.settled (hs : s.SubsSound) : s.settle.SubsSound := hs.same rfl rfl

/-- An answer and the end of its event leave points and subscriptions alone. -/
theorem State.SubsSound.replied {p : Port} {st : Status} {b : Body} (hs : s.SubsSound) : (s.answer p st b).settle.SubsSound :=
  hs.same rfl rfl

/-- Raising causes leaves points and subscriptions alone. -/
theorem State.SubsSound.raiseAll (hs : s.SubsSound) (rs : List Raise) : (s.raiseAll rs).SubsSound :=
  hs.mono (fun i h => by rwa [State.slot_raiseAll]) fun q i h => by rwa [State.sub_raiseAll] at h

/-- A count leaves points and subscriptions alone. -/
theorem State.SubsSound.countDown (hs : s.SubsSound) (p : Port) : (s.countDown p).SubsSound := hs.same rfl rfl

/-- The record of an order leaves points and subscriptions alone. -/
theorem State.SubsSound.setOrder (hs : s.SubsSound) (n : OrderIx) (o : Option Order) : (s.setOrder n o).SubsSound :=
  hs.same rfl rfl

/-- A release of every point a party holds leaves them defined. -/
theorem State.SubsSound.releaseHeld (hs : s.SubsSound) (w : Party) : (s.releaseHeld w).SubsSound :=
  hs.ofMap (State.slot_mapPoints s _) fun _ _ => rfl

/-- An internal claim leaves its destinations defined. -/
theorem State.SubsSound.grantInternal (hs : s.SubsSound) (w : Holder) (l : List PointIx) : (s.grantInternal w l).SubsSound :=
  hs.ofList (State.slot_grantInternal s w l) (State.sub_grantInternal s w l)

/-- A slot that is replaced, by a point or by none, keeps no subscription. -/
theorem State.SubsSound.replaceSlot (hs : s.SubsSound) (j : PointIx) (x : Option Point) : (s.replaceSlot j x).SubsSound := by
  intro q i h
  rw [State.sub_replaceSlot] at h
  rw [State.slot_replaceSlot]
  by_cases hij : i = j
  · simp [hij] at h
  · rw [if_neg hij] at h ⊢
    exact hs q i h

/-- A table reset keeps every definition and every subscription. -/
theorem State.SubsSound.tableReset (hs : s.SubsSound) : s.tableReset.SubsSound :=
  hs.mono (fun i h => by rwa [State.slot_tableReset, Option.isSome_map]) fun q i h => by
    rwa [State.sub_tableReset, Option.isSome_map] at h

/-- A port reset keeps every definition and ends subscriptions. -/
theorem State.SubsSound.portReset (hs : s.SubsSound) (p : Port) (w : List Entry) : (s.portReset p w).SubsSound := by
  refine hs.mono (fun i h => by rwa [State.slot_portReset, Option.isSome_map]) fun q i h => ?_
  rw [State.sub_portReset] at h
  split at h
  · cases h
  · exact h

/-- A CLAIM leaves the defined slots defined and the subscriptions alone. -/
theorem State.SubsSound.takeClaim (hs : s.SubsSound) (p : Port) (args : ClaimArgs) (mode : ClaimMode) (ixs : List PointIx) :
    (s.takeClaim p args mode ixs).1.SubsSound := by
  have hnotices := congrArg State.notices (s.takeClaim_frame p args mode ixs)
  exact hs.mono (fun i h => by rwa [State.isSome_slot_takeClaim]) fun q i h => by
    rwa [State.sub_congr (s := s) (by rw [hnotices])] at h

end

/-- The parts of a write keep the subscriptions sound. -/
theorem subsSound_writes : KeptByWrites State.SubsSound where
  store s i pt x q _ _ hs := by
    refine hs.mono (fun j h => ?_) fun r j h => by rwa [State.isSome_sub_store] at h
    rw [State.slot_store]
    split
    · rfl
    · exact h
  raise s rs hs := hs.raiseAll rs
  release s p i pt hpt _ hs := by
    refine hs.mono (fun j h => ?_) fun r j h => by rwa [State.sub_releasePoint] at h
    rw [State.slot_releasePoint]
    split
    · rw [hpt]
      rfl
    · exact h
  batch s p b hs := hs.same rfl rfl

section
variable {s : State}

/-- The executor's choice leaves points and subscriptions alone. -/
theorem State.SubsSound.freeExecutor (hs : s.SubsSound) : s.freeExecutor.SubsSound :=
  hs.same (State.startRun_points _) (State.startRun_notices _)

/-- A chain pulse leaves points and subscriptions alone. -/
theorem State.SubsSound.pulse (hs : s.SubsSound) (k : Option (Fin 8)) : (s.pulse k).SubsSound := by
  unfold State.pulse
  split
  · exact hs
  · exact hs.same (State.deliver_points ..) (State.deliver_notices ..)

/-- The end of a run releases points at most. -/
theorem State.SubsSound.endRun (hs : s.SubsSound) (n : OrderIx) (o : Order) : (s.endRun n o).SubsSound := by
  unfold State.endRun
  refine (State.SubsSound.pulse ?_ _).freeExecutor
  split
  · exact (hs.setOrder n _).releaseHeld _
  · exact hs.setOrder n _

/-- A copy event writes and releases at most. -/
theorem State.SubsSound.takeCopy (hs : s.SubsSound) (r : Run) (o : Order) : (s.takeCopy r o).SubsSound := by
  have reported : ((s.applyCopy (s.copyOutcome r.order o r.position)).modifyOrder r.order fun o' =>
      o'.report (s.copyOutcome r.order o r.position)).SubsSound :=
    (subsSound_writes.applyCopy r.order o r.position hs).same rfl rfl
  unfold State.takeCopy
  dsimp only
  split
  · exact reported.freeExecutor
  · split
    · exact reported.freeExecutor.raiseAll _
    · split
      · refine State.SubsSound.raiseAll ?_ _
        exact reported.same rfl rfl
      · exact (reported.endRun _ _).raiseAll _

/-- What follows a completion leaves points and subscriptions alone. -/
theorem State.SubsSound.nextConversion (hs : s.SubsSound) (a b : Nat) : (s.nextConversion a b).SubsSound := by
  have hpoints := congrArg State.points (s.nextConversion_frame a b)
  have hnotices := congrArg State.notices (s.nextConversion_frame a b)
  exact hs.same hpoints hnotices

/-- A RELEASE of every point a port holds leaves them defined. -/
theorem State.SubsSound.releaseAll (hs : s.SubsSound) (p : Port) : (s.releaseAll p).SubsSound := by
  unfold State.releaseAll
  refine State.SubsSound.raiseAll ?_ _
  exact (hs.releaseHeld (.port p)).same rfl rfl

/-- A subscription made at a defined point, or ended. -/
theorem State.SubsSound.setSub (hs : s.SubsSound) (p : Port) {i : PointIx} (x : Option Sub)
    (hi : x.isSome → (s.slot i).isSome) : (s.setSub p i x).SubsSound := by
  intro q j h
  rw [State.sub_setSub] at h
  split at h
  · rename_i hj
    rw [hj.2]
    exact hi h
  · exact hs q j h

/-- The ageing event keeps every definition and every subscription. -/
theorem State.SubsSound.ageTable (hs : s.SubsSound) : s.ageTable.SubsSound :=
  hs.ofMap (State.slot_ageTable s) (State.sub_ageTable s)

/-- A tick at the claim arbiter keeps every definition and every subscription. -/
theorem State.SubsSound.arbiterTick (hs : s.SubsSound) : s.arbiterTick.SubsSound :=
  hs.ofMap (State.slot_arbiterTick s) (State.sub_arbiterTick s)

end

/-- Every command keeps every subscription at a defined point: a slot loses its point only together with its subscriptions. -/
theorem subsSound_exec (c : Instr) (s t : State) (hs : s.SubsSound) (h : exec c s = .next t) : t.SubsSound := by
  have hpoints := congrArg State.points (exec_putBack h)
  have hnotices := congrArg State.notices (exec_putBack h)
  cases c with
  | coldReset =>
    cases h
    intro q i hsub
    have hnone : ({ State.reset with pending := s.pending } : State).sub q i = none := State.sub_reset q i
    rw [hnone] at hsub
    cases hsub
  | write p entries =>
    unfold exec execWrite at h
    refine onRequest_keeps hs (fun _ => ?_) h
    split
    · exact hs.replied
    · exact (subsSound_writes.takeWrites p _ hs).replied
  | define p args =>
    unfold exec execDefine at h
    refine onRequest_keeps hs (fun _ => ?_) h
    split
    · split
      · exact hs.replied
      · exact (hs.replaceSlot _ _).replied
    · exact hs.replied
  | undefine p point =>
    unfold exec execUndefine at h
    refine onRequest_keeps hs (fun _ => ?_) h
    split
    · exact hs.replied
    · split
      · exact hs.replied
      · split
        · exact hs.replied
        · exact (hs.replaceSlot _ none).replied
  | tableReset p =>
    unfold exec execTableReset at h
    have answered : (s.answer p .ok .empty).SubsSound := hs.same rfl rfl
    refine onRequest_keeps hs (fun _ => ?_) h
    exact answered.tableReset.settled
  | claim p args =>
    unfold exec execClaim at h
    refine onRequest_keeps hs (fun _ => ?_) h
    split
    · split
      · exact hs.replied
      · exact (hs.takeClaim p args _ _).replied
    · exact hs.replied
  | release p args =>
    unfold exec execRelease at h
    refine onRequest_keeps hs (fun _ => ?_) h
    split
    · exact hs.replied
    · refine (KeptByTable.takeList (fun w i hh hw => ?_) _ hs).replied
      obtain ⟨pt, hpt, hheld⟩ := State.holds_iff.1 hh
      exact subsSound_writes.release w p i pt hpt hheld hw
    · exact (hs.releaseAll p).replied
  | renew p args =>
    unfold exec execRenew at h
    refine onRequest_keeps hs (fun _ => ?_) h
    split
    · exact hs.replied
    · exact (KeptByTable.takeList (fun _ i _ hw => hw.ofModify i) _ hs).replied
    · exact (hs.ofMap (State.slot_mapPoints s _) fun _ _ => rfl).replied
  | withdraw p point =>
    unfold exec execWithdraw at h
    refine onRequest_keeps hs (fun _ => ?_) h
    split
    · exact hs.replied
    · split
      · exact ((hs.ofModify _).countDown p).replied
      · exact hs.replied
  | tickAgeing =>
    unfold exec execTickAgeing at h
    exact event_keeps hs (fun _ _ => hs.ageTable.settled) h
  | pointStale i =>
    unfold exec execPointStale at h
    exact event_keeps hs (fun _ _ => hs.ageTable.settled) h
  | claimArbiterTick =>
    unfold exec execClaimArbiterTick at h
    exact event_keeps hs (fun _ _ => hs.arbiterTick.settled) h
  | leaseLapse i =>
    unfold exec execLeaseLapse at h
    exact event_keeps hs (fun _ _ => hs.arbiterTick.settled) h
  | waitExpiry i p =>
    unfold exec execWaitExpiry at h
    exact event_keeps hs (fun _ _ => hs.arbiterTick.settled) h
  | batchCommit p release =>
    unfold exec execBatchCommit at h
    refine onRequest_keeps hs (fun _ => ?_) h
    split
    · exact hs.replied
    · split
      · exact hs.replied
      · exact (subsSound_writes.commit p _ release ‹_› hs).replied
  | subscribe p args =>
    unfold exec execSubscribe at h
    refine onRequest_keeps hs (fun _ => ?_) h
    split
    · split
      · exact hs.replied
      · rename_i i c _ _ _ pt hpt
        have hset : (s.setSub p i (some ⟨c.storedAt pt.defn.kind, pt.value⟩)).SubsSound := hs.setSub p _ fun _ => by rw [hpt]; rfl
        exact (hset.raiseAll [⟨p, .point i, .subscribed⟩]).replied
    · exact hs.replied
  | unsubscribe p point =>
    unfold exec execUnsubscribe at h
    refine onRequest_keeps hs (fun _ => ?_) h
    split
    · exact hs.replied
    · split
      · exact hs.replied
      · exact (hs.setSub p none nofun).replied
  | fetch p count =>
    unfold exec execFetch at h
    refine onRequest_keeps hs (fun _ => ?_) h
    dsimp only
    split
    · exact hs.replied
    · refine State.SubsSound.replied (hs.mono (fun i hi => by rwa [State.slot_setNotices]) fun q i hi => ?_)
      rwa [State.sub_congr (s := s)] at hi
      rw [State.setNotices_notices, PerPort.get_set]
      split
      · rename_i hq
        rw [hq]
        rfl
      · rfl
  | orderArm p order =>
    unfold exec execOrderArm at h
    refine onRequest_keeps hs (fun _ => ?_) h
    split
    · exact hs.replied
    · rename_i n _
      split
      · exact hs.replied
      · split
        · exact hs.replied
        · split
          · exact hs.replied
          · split
            · exact hs.replied
            · exact ((hs.grantInternal (.order n) _).setOrder n _).replied
  | orderDisarm p order =>
    unfold exec execOrderDisarm at h
    refine onRequest_keeps hs (fun _ => ?_) h
    split
    · exact hs.replied
    · rename_i n _
      split
      · exact hs.replied
      · split
        · have hstopped : ((s.modifyOrder n Order.disarm).stopRun n).SubsSound := hs.same rfl rfl
          exact ((hstopped.releaseHeld (.order n)).raiseAll _).replied
        · exact hs.replied
        · exact (hs.setOrder n _).replied
  | orderCopy =>
    unfold exec execOrderCopy at h
    refine event_keeps hs (fun _ _ => ?_) h
    split
    · exact hs.settled
    · split
      · exact hs.freeExecutor.settled
      · exact (hs.takeCopy _ _).settled
  | scanArm p =>
    unfold exec execScanArm at h
    refine onRequest_keeps hs (fun _ => ?_) h
    split
    · exact hs.replied
    · rename_i sc _
      split
      · exact hs.replied
      · dsimp only
        split
        · exact hs.replied
        · refine State.SubsSound.replied ?_
          exact (hs.grantInternal .scanner (sc.entries.map ScanEntry.dest)).same rfl rfl
  | scanDisarm p =>
    unfold exec execScanDisarm at h
    refine onRequest_keeps hs (fun _ => ?_) h
    split
    · exact hs.replied
    · rename_i sc _
      split
      · have habandoned : ({ s with scanner := some (sc.abandon .defined) } : State).SubsSound := hs.same rfl rfl
        exact ((habandoned.releaseHeld .scanner).raiseAll _).replied
      · exact hs.replied
  | conversionCompletion raw =>
    unfold exec execConversionCompletion at h
    refine event_keeps hs (fun _ _ => ?_) h
    split
    · exact hs.settled
    · split
      · exact hs.settled
      · exact (((subsSound_writes.scanWrite _ raw hs).nextConversion _ _).raiseAll _).settled
  | portReset p =>
    unfold exec execPortReset at h
    have hreset : (s.resetOwnPort p).SubsSound := hs.portReset p _
    refine onRequest_keeps hs (fun _ => ?_) h
    exact hreset.settled
  | forcePortReset p target =>
    unfold exec execForcePortReset at h
    refine onRequest_keeps hs (fun _ => ?_) h
    split
    · exact hs.replied
    · split
      · exact (hs.portReset p _).settled
      · exact (hs.portReset _ []).replied
  | _ => exact hs.same hpoints hnotices

end Sys2Proof.Machine

namespace Sys2Proof.Machine

/-! ### Timers (R160 to R164) -/

section
variable {t : Timer}

/-- A tick produced is due at a running timer alone. -/
theorem Timer.sound_tickDue (ht : t.sound) : t.tickDue.sound := by
  unfold Timer.tickDue
  split
  · rename_i hrun
    obtain ⟨hperiod, hmax, hremaining, hleft, -⟩ := ht
    exact ⟨hperiod, hmax, hremaining, hleft, fun hstop => by simp [hrun] at hstop⟩
  · exact ht

/-- A timer that is stopped keeps its fields, and no tick is due at it (log 7). -/
theorem Timer.sound_stop (ht : t.sound) : t.stop.sound := by
  obtain ⟨hperiod, hmax, hremaining, -, -⟩ := ht
  exact ⟨hperiod, hmax, hremaining, nofun, fun _ => rfl⟩

/-- A running timer that takes a tick counts down, starts again or stops (R163). -/
theorem Timer.sound_ticked (ht : t.sound) (hrun : t.running = true) : t.ticked.sound := by
  obtain ⟨hperiod, hmax, hremaining, hleft, -⟩ := ht
  unfold Timer.ticked
  split
  · split
    · exact ⟨hperiod, hmax, Nat.le_refl _, fun _ => hperiod, fun hstop => by simp [hrun] at hstop⟩
    · exact ⟨hperiod, hmax, Nat.zero_le _, nofun, fun _ => rfl⟩
  · rename_i hmore
    have htwo : 1 < t.remaining := by simpa [Timer.expires] using hmore
    exact ⟨hperiod, hmax, Nat.le_trans (Nat.sub_le _ _) hremaining, fun _ => Nat.le_sub_of_add_le htwo,
      fun hstop => by simp [hrun] at hstop⟩

/-- A timer loaded with a nonzero 2-byte period. -/
theorem Timer.sound_load (t : Timer) {period : Half} (mode : TimerMode) (h : period ≠ 0) : (t.load period.toNat mode).sound := by
  have hpos : 1 ≤ period.toNat := Nat.pos_of_ne_zero fun e => h (BitVec.eq_of_toNat_eq e)
  have hlt := period.isLt
  exact ⟨hpos, Nat.le_of_lt_succ hlt, Nat.le_refl _, fun _ => hpos, nofun⟩

end

/-! ### The tick generator (R157, R158, log 4) -/

/-- The tick generator's part of TimeSound, with whether the part is held in cold reset. -/
def TickGen.sound (g : TickGen) (held : Bool) : Prop :=
  1 ≤ g.period ∧ g.period ≤ Config.tickPeriodMax ∧ (held = false → (g.interval.isSome ↔ g.running = true)) ∧
    (held = true → g.running = true ∧ g.interval = none)

/-- The time base is sound when its tick generator and its timers are. -/
theorem State.timeSound_iff (s : State) :
    s.TimeSound ↔ s.tickGen.sound s.held ∧ ∀ n : Fin 4, s.timers[n.val].sound := by
  simp only [State.TimeSound, TickGen.sound, and_assoc]

/-- TICK_SET outside cold reset starts an interval exactly when it starts the tick (R158). -/
theorem TickGen.sound_set {g : TickGen} {period : Nat} (run : Bool) (hg : g.sound false) (hpos : 1 ≤ period)
    (hmax : period ≤ Config.tickPeriodMax) : (g.set period run).sound false := by
  obtain ⟨-, -, hrun, -⟩ := hg
  have hrun := hrun rfl
  unfold TickGen.set
  split
  · exact ⟨hpos, hmax, fun _ => hrun, nofun⟩
  · exact ⟨hpos, hmax, fun _ => by simp, nofun⟩
  · exact ⟨hpos, hmax, fun _ => hrun, nofun⟩
  · exact ⟨hpos, hmax, fun _ => by simp, nofun⟩

/-- The arguments that TICK_SET accepts give a period within the bounds (R158). -/
theorem tickArgs?_bounds {field : Half} {code : Byte} {period : Nat} {run : Bool} (h : tickArgs? field code = some (period, run)) :
    1 ≤ period ∧ period ≤ Config.tickPeriodMax := by
  unfold tickArgs? at h
  split at h
  · cases h
  · rename_i hbounds
    simp only [Bool.or_eq_true, decide_eq_true_eq, not_or, Nat.not_lt] at hbounds
    obtain ⟨_, -, hargs⟩ := Option.map_eq_some_iff.1 h
    cases hargs
    exact ⟨Nat.pos_of_ne_zero hbounds.1, hbounds.2⟩

/-! ### The time base through the commands (R157 to R164) -/

section
variable {s t : State}

/-- The time base is sound by the reset hold, the tick generator and the timers alone. -/
theorem State.TimeSound.same (hs : s.TimeSound) (hh : t.held = s.held) (hg : t.tickGen = s.tickGen)
    (ht : t.timers = s.timers) : t.TimeSound := by
  unfold State.TimeSound
  simp only [hh, hg, ht]
  exact hs

/-- The end of an event leaves the time base alone. -/
theorem State.TimeSound.settled (hs : s.TimeSound) : s.settle.TimeSound := hs.same rfl rfl rfl

/-- An answer and the end of its event leave the time base alone. -/
theorem State.TimeSound.replied {p : Port} {st : Status} {b : Body} (hs : s.TimeSound) : (s.answer p st b).settle.TimeSound :=
  hs.same rfl rfl rfl

/-- A change of the tick generator that keeps it sound. -/
theorem State.TimeSound.ofGen (hs : s.TimeSound) (ht : t.timers = s.timers) (hg : t.tickGen.sound t.held) : t.TimeSound :=
  (State.timeSound_iff t).2 ⟨hg, by
    simp only [ht]
    exact ((State.timeSound_iff s).1 hs).2⟩

/-- A change of every timer by an operation that keeps it sound. -/
theorem State.TimeSound.ofTimers {f : Timer → Timer} (hs : s.TimeSound) (ht : t.timers = mapTable f s.timers)
    (hf : ∀ x : Timer, x.sound → (f x).sound) (hg : t.tickGen.sound t.held) : t.TimeSound :=
  (State.timeSound_iff t).2 ⟨hg, fun n => by
    simp only [ht, mapTable_getElem]
    exact hf _ (((State.timeSound_iff s).1 hs).2 n)⟩

/-- One timer replaced by a sound one. -/
theorem State.TimeSound.setTimer (hs : s.TimeSound) (n : Fin 4) {x : Timer} (hx : x.sound) : (s.setTimer n x).TimeSound := by
  obtain ⟨hgen, htimers⟩ := (State.timeSound_iff s).1 hs
  refine (State.timeSound_iff _).2 ⟨hgen, fun m => ?_⟩
  simp only [State.setTimer_timers, Vector.getElem_set]
  split
  · exact hx
  · exact htimers m

/-- The ageing event takes a tick from the point table, and leaves the rest of the time base alone. -/
theorem State.TimeSound.ageTable (hs : s.TimeSound) : s.ageTable.TimeSound := by
  unfold State.ageTable
  refine hs.ofGen (State.raiseAll_timers ..) ?_
  rw [State.raiseAll_tickGen, State.raiseAll_held]
  exact ((State.timeSound_iff s).1 hs).1

/-- A tick at the claim arbiter is taken from it, and the rest of the time base is left alone. -/
theorem State.TimeSound.arbiterTick (hs : s.TimeSound) : s.arbiterTick.TimeSound := by
  unfold State.arbiterTick
  refine hs.ofGen (State.raiseAll_timers ..) ?_
  rw [State.raiseAll_tickGen, State.raiseAll_held]
  exact ((State.timeSound_iff s).1 hs).1

/-- A tick due at a running timer is taken by it (R163). -/
theorem State.TimeSound.timerTick (hs : s.TimeSound) {n : Fin 4} (hrun : s.timers[n.val].running = true) :
    (s.timerTick n).TimeSound := by
  have hset := hs.setTimer n (Timer.sound_ticked (((State.timeSound_iff s).1 hs).2 n) hrun)
  unfold State.timerTick
  dsimp only
  split
  · exact hset.same (State.deliver_held ..) (State.deliver_tickGen ..) (State.deliver_timers ..)
  · exact hset

/-- A tick is due at a running timer alone. -/
theorem State.running_of_timerDue {n : Fin 4} (h : s.timerDue n = true) : s.timers[n.val].running = true := by
  simp only [State.timerDue, Bool.and_eq_true] at h
  exact h.1.2

/-- A tick produced starts the next interval, and is due at each running timer (R157, R159). -/
theorem State.TimeSound.produceTick (hs : s.TimeSound) (hheld : s.held = false) (hrun : s.tickGen.running = true) :
    s.produceTick.TimeSound := by
  obtain ⟨⟨hpos, hmax, -, -⟩, -⟩ := (State.timeSound_iff s).1 hs
  refine hs.ofTimers rfl (fun _ => Timer.sound_tickDue) ?_
  exact ⟨hpos, hmax, fun _ => iff_of_true rfl hrun, fun h => nomatch h.symm.trans hheld⟩

/-- A table reset stops every timer, and leaves the tick generator alone (R164). -/
theorem State.TimeSound.tableReset (hs : s.TimeSound) : s.tableReset.TimeSound :=
  hs.ofTimers (f := Timer.stop) rfl (fun _ => Timer.sound_stop) ((State.timeSound_iff s).1 hs).1

/-- The end of cold reset starts the first interval (R157). -/
theorem State.TimeSound.leaveReset (hs : s.TimeSound) (hheld : s.held = true) (pins : BitVec 8) :
    (s.leaveReset pins).TimeSound := by
  obtain ⟨⟨hpos, hmax, -, hreset⟩, -⟩ := (State.timeSound_iff s).1 hs
  exact hs.ofGen rfl ⟨hpos, hmax, fun _ => iff_of_true rfl (hreset hheld).1, nofun⟩

end

/-- Every command keeps the time base sound. -/
theorem timeSound_exec (c : Instr) (s t : State) (hs : s.TimeSound) (h : exec c s = .next t) : t.TimeSound := by
  have hheld := congrArg State.held (exec_putBack h)
  have htickGen := congrArg State.tickGen (exec_putBack h)
  have htimers := congrArg State.timers (exec_putBack h)
  cases c with
  | coldReset =>
    cases h
    obtain ⟨-, -, -, -, -, -, -, -, -, -, -, -, hreset, -, -⟩ := resetStateIsSound
    exact hreset.same rfl rfl rfl
  | tableReset p =>
    unfold exec execTableReset at h
    have answered : (s.answer p .ok .empty).TimeSound := hs.same rfl rfl rfl
    refine onRequest_keeps hs (fun _ => ?_) h
    exact answered.tableReset.settled
  | tick =>
    unfold exec execTick at h
    exact event_keeps hs (fun hheld hrun => (hs.produceTick hheld hrun).settled) h
  | tickAgeing =>
    unfold exec execTickAgeing at h
    exact event_keeps hs (fun _ _ => hs.ageTable.settled) h
  | pointStale i =>
    unfold exec execPointStale at h
    exact event_keeps hs (fun _ _ => hs.ageTable.settled) h
  | claimArbiterTick =>
    unfold exec execClaimArbiterTick at h
    exact event_keeps hs (fun _ _ => hs.arbiterTick.settled) h
  | leaseLapse i =>
    unfold exec execLeaseLapse at h
    exact event_keeps hs (fun _ _ => hs.arbiterTick.settled) h
  | waitExpiry i p =>
    unfold exec execWaitExpiry at h
    exact event_keeps hs (fun _ _ => hs.arbiterTick.settled) h
  | timerTick n =>
    unfold exec execTimerTick at h
    refine event_keeps hs (fun _ hdue => ?_) h
    exact (hs.timerTick (State.running_of_timerDue hdue)).settled
  | timerExpiry n =>
    unfold exec execTimerExpiry at h
    refine event_keeps hs (fun _ hdue => ?_) h
    exact (hs.timerTick (State.running_of_timerDue (Bool.and_eq_true_iff.1 hdue).1)).settled
  | tickSet p field code =>
    unfold exec execTickSet at h
    refine onRequest_keeps hs (fun hdue => ?_) h
    split
    · exact hs.replied
    · rename_i period run hargs
      obtain ⟨hpos, hmax⟩ := tickArgs?_bounds hargs
      have hgen : s.tickGen.sound false := hdue.1 ▸ ((State.timeSound_iff s).1 hs).1
      have hset : (s.tickGen.set period run).sound s.held := hdue.1.symm ▸ TickGen.sound_set run hgen hpos hmax
      exact State.TimeSound.replied (hs.ofGen rfl hset)
  | timerSet p timer period mode =>
    unfold exec execTimerSet at h
    refine onRequest_keeps hs (fun _ => ?_) h
    split
    · dsimp only
      split
      · exact hs.replied
      · exact (hs.setTimer _ (Timer.sound_load _ _ ‹_›)).replied
    · exact hs.replied
  | timerStop p timer =>
    unfold exec execTimerStop at h
    refine onRequest_keeps hs (fun _ => ?_) h
    split
    · exact hs.replied
    · rename_i n _
      exact (hs.setTimer n (Timer.sound_stop (((State.timeSound_iff s).1 hs).2 n))).replied
  | coldResetEnd pins =>
    simp only [exec, execColdResetEnd] at h
    split at h
    · cases h
      exact (hs.leaveReset ‹_› pins).settled
    · cases h
      exact hs
  | _ => exact hs.same hheld htickGen htimers

/-! ### The configuration set (R185 to R187) -/

/-- A set is not empty exactly when it has a member. -/
theorem PortSet.isEmpty_eq_false (v : PortSet) : PortSet.isEmpty v = false ↔ ∃ p, v.get p = true := by
  unfold PortSet.isEmpty
  rw [Bool.not_eq_false', Bool.or_eq_true, Bool.or_eq_true, Bool.or_eq_true]
  constructor
  · rintro (((h | h) | h) | h)
    · exact ⟨.a, h⟩
    · exact ⟨.b, h⟩
    · exact ⟨.c, h⟩
    · exact ⟨.d, h⟩
  · rintro ⟨p, h⟩
    cases p with
    | a => exact .inl (.inl (.inl h))
    | b => exact .inl (.inl (.inr h))
    | c => exact .inl (.inr h)
    | d => exact .inr h

/-- A grant leaves a member: the port it names. -/
theorem PortSet.isEmpty_grant (v : PortSet) (q : Port) : PortSet.isEmpty (v.set q true) = false :=
  (PortSet.isEmpty_eq_false _).2 ⟨q, by rw [PerPort.get_set, if_pos rfl]⟩

/-- A revocation that is not refused leaves a member: it names a port outside the set, or not the sole one in it (R187). -/
theorem PortSet.isEmpty_revoke {v : PortSet} {q : Port} (hv : PortSet.isEmpty v = false)
    (h : ¬ (v.get q && PortSet.isEmpty (v.set q false)) = true) : PortSet.isEmpty (v.set q false) = false := by
  rw [Bool.and_eq_true, not_and] at h
  cases hq : v.get q with
  | true => exact Bool.eq_false_iff.2 (h hq)
  | false =>
    have hsame : v.set q false = v := by rw [← hq, PerPort.set_get_self]
    rw [hsame]
    exact hv

/-- Every command keeps a port in the configuration set. -/
theorem configSound_exec (c : Instr) (s t : State) (hs : s.ConfigSound) (h : exec c s = .next t) : t.ConfigSound := by
  have hconfig := congrArg State.config (exec_putBack h)
  cases c with
  | coldReset =>
    cases h
    rfl
  | configGrant p target =>
    unfold exec execConfigGrant at h
    refine onRequest_keeps hs (fun _ => ?_) h
    split
    · exact hs
    · exact PortSet.isEmpty_grant s.config _
  | configRevoke p target =>
    unfold exec execConfigRevoke at h
    refine onRequest_keeps hs (fun _ => ?_) h
    split
    · exact hs
    · dsimp only
      split
      · exact hs
      · exact PortSet.isEmpty_revoke hs ‹_›
  | _ => exact (congrArg PortSet.isEmpty hconfig).trans hs

/-- Settles O15: each of the four is kept by every command, and none reads the queue. -/
theorem batchesSubscriptionsTimeAndSetStaySound : Obligations.BatchesSubscriptionsTimeAndSetStaySound :=
  ⟨keptByStep_of (fun _ _ hs => hs.same rfl) batchesSound_exec, keptByStep_of (fun _ _ hs => hs.same rfl rfl) subsSound_exec,
    keptByStep_of (fun _ _ hs => hs.same rfl rfl rfl) timeSound_exec, keptByStep_of (fun _ _ hs => hs) configSound_exec⟩

end Sys2Proof.Machine

namespace Sys2Proof.Machine

/-! ### BATCH_OPEN and BATCH_DISCARD (R60, R68) -/

section
variable {s : State} {p : Port}

/-- A request that replaces its port's batch, or closes it, and is answered OK: the batch, and nothing else. -/
theorem State.setBatch_answered (x : Option Batch) (body : Body) :
    let t := ((s.setBatch p x).answer p .ok body).settle
    Replied s t p .ok body ∧ (∀ q, t.batches.get q = if q = p then x else s.batches.get q) ∧
      { t with batches := s.batches, ports := s.ports } = s :=
  ⟨replied_answer rfl p _ _, fun q => PerPort.get_set s.batches p q x, rfl⟩

/-- A BATCH_OPEN that is due finds a batch open, or opens one. -/
theorem exec_batchOpen (hdue : s.Due p .batchOpen) :
    (∀ b, s.batches.get p = some b → exec (.batchOpen p) s = .next (s.answer p .state (.entries b.length)).settle) ∧
      (s.batches.get p = none → exec (.batchOpen p) s = .next ((s.setBatch p (some [])).answer p .ok .empty).settle) := by
  have hexec : exec (.batchOpen p) s = execBatchOpen p s := rfl
  rw [hexec, execBatchOpen, onRequest_due hdue]
  constructor
  · intro b hb
    rw [hb]
  · intro hb
    rw [hb]

/-- A BATCH_DISCARD that is due finds no batch, or closes the open one. -/
theorem exec_batchDiscard (hdue : s.Due p .batchDiscard) :
    (s.batches.get p = none → exec (.batchDiscard p) s = .next (s.answer p .noBatch .empty).settle) ∧
      (∀ b, s.batches.get p = some b → exec (.batchDiscard p) s = .next ((s.setBatch p none).answer p .ok .empty).settle) := by
  have hexec : exec (.batchDiscard p) s = execBatchDiscard p s := rfl
  rw [hexec, execBatchDiscard, onRequest_due hdue]
  constructor
  · intro hb
    rw [hb]
  · intro b hb
    rw [hb]

end

/-- Settles O30: each of the two requests is refused, or replaces its port's batch and nothing else. -/
theorem batchIsOpenedAndDiscarded : Obligations.BatchIsOpenedAndDiscarded := by
  refine ⟨fun s p hdue => ?_, fun s p hdue => ?_⟩
  · obtain ⟨hopen, hnew⟩ := exec_batchOpen hdue
    exact ⟨fun b hb => onlyReplies_of (hopen b hb), fun hb => ⟨_, hnew hb, State.setBatch_answered (some []) .empty⟩⟩
  · obtain ⟨hnone, hopen⟩ := exec_batchDiscard hdue
    exact ⟨fun hb => onlyReplies_of (hnone hb), fun b hb => ⟨_, hopen b hb, State.setBatch_answered none .empty⟩⟩

/-! ### BATCH_PUT (R61, R62) -/

/-- The staged value is the only one of its point. -/
theorem Batch.eq_of_mem_put {b : Batch} {e x : BatchEntry} (hx : x ∈ b.put e) (hpoint : x.point = e.point) : x = e := by
  by_cases h : e.point ∈ b.map BatchEntry.point
  · rw [Batch.put_of_mem h] at hx
    obtain ⟨y, -, rfl⟩ := List.mem_map.1 hx
    by_cases hy : y.point = e.point
    · exact if_pos hy
    · rw [if_neg hy] at hpoint
      exact absurd hpoint hy
  · rw [Batch.put_of_not_mem h, List.mem_append, List.mem_singleton] at hx
    exact hx.resolve_left fun hx => h (hpoint ▸ List.mem_map_of_mem hx)

/-- A staged value leaves the values of the other points alone. -/
theorem Batch.mem_put_of_ne {b : Batch} {e x : BatchEntry} (hpoint : x.point ≠ e.point) : x ∈ b.put e ↔ x ∈ b := by
  have hne : x ≠ e := fun h => hpoint (congrArg BatchEntry.point h)
  by_cases h : e.point ∈ b.map BatchEntry.point
  · rw [Batch.put_of_mem h]
    refine ⟨fun hx => ?_, fun hx => List.mem_map.2 ⟨x, hx, if_neg hpoint⟩⟩
    obtain ⟨y, hy, hyx⟩ := List.mem_map.1 hx
    split at hyx
    · exact absurd hyx.symm hne
    · exact hyx ▸ hy
  · rw [Batch.put_of_not_mem h, List.mem_append, List.mem_singleton, or_iff_left hne]

/-- The fields of BATCH_PUT entries with their indices of 511 or less. -/
theorem allSome_putEntry {args : List PutArgs} {es : List BatchEntry}
    (h : args.map (fun a => (a.point.toNat, a.value)) = es.map (fun e => (e.point.val, e.value))) :
    allSome putEntry? args = some es := by
  induction args generalizing es with
  | nil =>
    cases es with
    | nil => rfl
    | cons => cases h
  | cons a args ih =>
    cases es with
    | nil => cases h
    | cons e es =>
      rw [List.map_cons, List.map_cons, List.cons.injEq, Prod.mk.injEq] at h
      obtain ⟨⟨hpoint, hvalue⟩, hrest⟩ := h
      simp [allSome, putEntry?, (pointIx?_eq_some a.point e.point).2 hpoint, hvalue, ih hrest]

/-- Settles O31: BATCH_PUT is refused, or stages every value; and one staged value replaces in place or is appended. -/
theorem batchPutStagesInOrder : Obligations.BatchPutStagesInOrder := by
  refine ⟨fun s p args hdue => ?_, fun b e => ⟨Batch.points_put b e, fun _ => Batch.eq_of_mem_put, fun _ => Batch.mem_put_of_ne⟩⟩
  refine ⟨fun hb => onlyReplies_of ?_, fun b hb => ⟨fun ⟨a, ha, hbig⟩ => onlyReplies_of ?_, fun es hes =>
    ⟨fun hfull => onlyReplies_of ?_, fun hfits => ⟨_, ?_, State.setBatch_answered (some (es.foldl Batch.put b)) _⟩⟩⟩⟩
  · show execBatchPut p args s = _
    unfold execBatchPut
    rw [onRequest_due hdue, hb]
  · have hnone : putEntry? a = none := by simp [putEntry?, (pointIx?_eq_none a.point).2 hbig]
    show execBatchPut p args s = _
    unfold execBatchPut
    rw [onRequest_due hdue, hb, allSome_eq_none ha hnone]
  · show execBatchPut p args s = _
    unfold execBatchPut
    rw [onRequest_due hdue, hb, allSome_putEntry hes]
    exact congrArg _ (congrArg _ (if_pos hfull))
  · show execBatchPut p args s = _
    unfold execBatchPut
    rw [onRequest_due hdue, hb, allSome_putEntry hes]
    exact congrArg _ (congrArg _ (if_neg (Nat.not_lt.2 hfits)))

end Sys2Proof.Machine

namespace Sys2Proof.Machine

/-! ### The check of a commit (R63, R64) -/

section
variable {s : State} {p : Port} {e : BatchEntry}

/-- An entry for an undefined slot is NOT_DEFINED. -/
theorem State.commitCheck_undefined (h : s.slot e.point = none) : s.commitCheck p e = some .notDefined := by
  simp [State.commitCheck, h]

/-- An entry for a point that the port does not hold is NOT_HOLDER. -/
theorem State.commitCheck_notHolder {pt : Point} (h : s.slot e.point = some pt) (hheld : pt.heldBy (.port p) = false) :
    s.commitCheck p e = some .notHolder := by
  simp [State.commitCheck, h, hheld]

/-- An entry for a point that the port holds fails only outside the limits of a point with limit action REJECT. -/
theorem State.commitCheck_holder {pt : Point} (h : s.slot e.point = some pt) (hheld : pt.heldBy (.port p) = true) :
    s.commitCheck p e =
      if pt.defn.limitAction = .reject ∧ pt.defn.inRange (pt.defn.kind.num e.value) = false then some .outOfRange else none := by
  simp [State.commitCheck, h, hheld, PointDef.rejects, and_comm]

/-- An entry that passes its check is for a defined point. -/
theorem State.isSome_slot_of_commitCheck (h : s.commitCheck p e = none) : (s.slot e.point).isSome := by
  cases hpt : s.slot e.point with
  | some pt => rfl
  | none =>
    rw [State.commitCheck_undefined hpt] at h
    cases h

/-- Entries that all pass name no failing entry, whatever their positions. -/
theorem findSome?_commitCheck_eq_none {l : List BatchEntry} (h : ∀ x ∈ l, s.commitCheck p x = none) (n : Nat) :
    ((l.zipIdx n).findSome? fun (e, k) => (s.commitCheck p e).map fun st => (k + 1, e.point, st)) = none := by
  rw [List.findSome?_eq_none_iff]
  rintro ⟨x, k⟩ hx
  simp only [h x (List.fst_mem_of_mem_zipIdx hx), Option.map_none]

/-- A batch whose entries all pass has no barrier. -/
theorem State.commitBarrier_eq_none {b : Batch} (h : ∀ x ∈ b, s.commitCheck p x = none) : s.commitBarrier p b = none :=
  findSome?_commitCheck_eq_none h 0

/-- The barrier of a batch is its first failing entry, with its position from 1. -/
theorem State.commitBarrier_first {before after : List BatchEntry} {st : Status}
    (hbefore : ∀ x ∈ before, s.commitCheck p x = none) (hst : s.commitCheck p e = some st) :
    s.commitBarrier p (before ++ e :: after) = some (before.length + 1, e.point, st) := by
  unfold State.commitBarrier
  rw [List.zipIdx_append, List.findSome?_append, findSome?_commitCheck_eq_none hbefore, Option.none_or, List.zipIdx_cons,
    List.findSome?_cons]
  simp [hst]

/-- A BATCH_COMMIT without an open batch. -/
theorem exec_batchCommit_noBatch {release : Bool} (hdue : s.Due p (.batchCommit release)) (hb : s.batches.get p = none) :
    exec (.batchCommit p release) s = .next (s.answer p .noBatch .empty).settle := by
  show execBatchCommit p release s = _
  unfold execBatchCommit
  rw [onRequest_due hdue, hb]

/-- A BATCH_COMMIT with a failing entry. -/
theorem exec_batchCommit_refused {release : Bool} {b : Batch} {position : Nat} {i : PointIx} {st : Status}
    (hdue : s.Due p (.batchCommit release)) (hb : s.batches.get p = some b)
    (hbarrier : s.commitBarrier p b = some (position, i, st)) :
    exec (.batchCommit p release) s = .next (s.answer p .batchRefused (.commitRefused position i st)).settle := by
  show execBatchCommit p release s = _
  unfold execBatchCommit
  rw [onRequest_due hdue, hb]
  dsimp only
  rw [hbarrier]

/-- A BATCH_COMMIT whose entries all pass. -/
theorem exec_batchCommit_passed {release : Bool} {b : Batch} (hdue : s.Due p (.batchCommit release))
    (hb : s.batches.get p = some b) (hbarrier : s.commitBarrier p b = none) :
    exec (.batchCommit p release) s = .next ((s.commit p b release).answer p .ok
      (.committed b.length (s.clampMarks b) (s.commitReleases b release).length)).settle := by
  show execBatchCommit p release s = _
  unfold execBatchCommit
  rw [onRequest_due hdue, hb]
  dsimp only
  rw [hbarrier]

end

/-- Settles O32: the barrier of the batch is its first failing entry, and a refusal is an answer alone. -/
theorem commitRefusedAppliesNothing : Obligations.CommitRefusedAppliesNothing := by
  refine ⟨fun s p release hdue => ?_, fun s p e => ⟨State.commitCheck_undefined, fun pt hpt =>
    ⟨State.commitCheck_notHolder hpt, State.commitCheck_holder hpt⟩⟩⟩
  refine ⟨fun hb => onlyReplies_of (exec_batchCommit_noBatch hdue hb), ?_⟩
  rintro b before e after st hb rfl hbefore hst
  exact onlyReplies_of (exec_batchCommit_refused hdue hb (State.commitBarrier_first hbefore hst))

end Sys2Proof.Machine

namespace Sys2Proof.Machine

/-! ### The writes of a commit (R65) -/

/-- The point after the write of a batch entry with this value: stored within the limits, quality GOOD (R65). -/
def Point.committed (pt : Point) (v : Word) : Point := pt.written (pt.defn.fit (pt.defn.kind.num v)) .good

/-- An entry for a defined point is a write with its causes. -/
theorem State.commitEntry_of_slot {s : State} {e : BatchEntry} {pt : Point} (h : s.slot e.point = some pt) :
    s.commitEntry e = s.storeAndRaise e.point pt (pt.defn.fit (pt.defn.kind.num e.value)) .good
      (!pt.defn.inRange (pt.defn.kind.num e.value)) := by
  unfold State.commitEntry
  rw [h]

/-- One entry of a commit changes its own slot alone. -/
theorem State.slot_commitEntry (s : State) (e : BatchEntry) (j : PointIx) :
    (s.commitEntry e).slot j = if j = e.point then (s.slot j).map fun pt => pt.committed e.value else s.slot j := by
  cases h : s.slot e.point with
  | none =>
    have hsame : s.commitEntry e = s := by
      unfold State.commitEntry
      rw [h]
    rw [hsame]
    split
    · rename_i hj
      rw [hj, h]
      rfl
    · rfl
  | some pt =>
    rw [State.commitEntry_of_slot h, State.slot_storeAndRaise]
    split
    · rename_i hj
      rw [hj, h]
      rfl
    · rfl

/-- One entry of a commit leaves the counts alone. -/
theorem State.commitEntry_counts (s : State) (e : BatchEntry) : (s.commitEntry e).counts = s.counts := by
  have h := congrArg State.counts (State.commitEntry_frame s e)
  exact h

/-- The entries of a commit leave the slots of other points alone. -/
theorem State.slot_commitEntries_of_not_mem {b : Batch} {j : PointIx} (h : j ∉ b.map BatchEntry.point) (s : State) :
    (b.foldl State.commitEntry s).slot j = s.slot j := by
  induction b generalizing s with
  | nil => rfl
  | cons e b ih =>
    rw [List.map_cons, List.mem_cons, not_or] at h
    rw [List.foldl_cons, ih h.2, State.slot_commitEntry, if_neg h.1]

/-- In a batch with no point twice each entry writes its point once. -/
theorem State.slot_commitEntries {b : Batch} (hb : (b.map BatchEntry.point).Nodup) {e : BatchEntry} (he : e ∈ b) (s : State) :
    (b.foldl State.commitEntry s).slot e.point = (s.slot e.point).map fun pt => pt.committed e.value := by
  induction b generalizing s with
  | nil => cases he
  | cons x b ih =>
    rw [List.map_cons, List.nodup_cons] at hb
    rw [List.foldl_cons]
    rcases List.mem_cons.1 he with rfl | he
    · rw [State.slot_commitEntries_of_not_mem hb.1, State.slot_commitEntry, if_pos rfl]
    · have hne : e.point ≠ x.point := fun h => hb.1 (h ▸ List.mem_map_of_mem he)
      rw [ih hb.2 he, State.slot_commitEntry, if_neg hne]

/-! ### The releases of a commit (R66) -/

/-- A batch point is released when its claim is WRITE_ONCE, and with release-after in any case. -/
theorem State.mem_commitReleases (s : State) (b : Batch) (release : Bool) (i : PointIx) :
    i ∈ s.commitReleases b release ↔
      i ∈ b.map BatchEntry.point ∧ (release = true ∨ ∃ pt ∈ s.slot i, pt.holder.isOnce = true) := by
  simp [State.commitReleases, Option.any_eq_true]

/-- The releases stand in ascending point order (R81). -/
theorem State.commitReleases_ascending (s : State) (b : Batch) (release : Bool) :
    (s.commitReleases b release).Pairwise (· < ·) :=
  List.Pairwise.filter _ (List.pairwise_lt_finRange 512)

/-- A release at a defined point counts its port down, and no other (R35). -/
theorem State.counts_releasePoint {s : State} {i : PointIx} (h : (s.slot i).isSome) (p q : Port) :
    (s.releasePoint p i).counts.get q = if q = p then s.counts.get q - 1 else s.counts.get q := by
  obtain ⟨pt, hpt⟩ := Option.isSome_iff_exists.1 h
  rw [State.releasePoint_eq s p i pt hpt, PerPort.get_set]
  split
  · rename_i hq
    rw [hq]
  · rfl

/-- A list of releases with no point twice releases each of its points once, and no other. -/
theorem State.slot_releases {l : List PointIx} (hl : l.Nodup) (s : State) (p : Port) (j : PointIx) :
    (l.foldl (fun u i => u.releasePoint p i) s).slot j = if j ∈ l then (s.slot j).map Point.release else s.slot j := by
  induction l generalizing s with
  | nil => rfl
  | cons i l ih =>
    rw [List.nodup_cons] at hl
    rw [List.foldl_cons, ih hl.2, State.slot_releasePoint]
    by_cases hji : j = i
    · subst hji
      rw [if_neg hl.1, if_pos rfl, if_pos (List.mem_cons_self ..)]
    · simp only [hji, if_false, List.mem_cons, false_or]

/-- A list of releases at defined points counts its port down by its length, and no other. -/
theorem State.counts_releases {l : List PointIx} {s : State} (h : ∀ i ∈ l, (s.slot i).isSome) (p q : Port) :
    (l.foldl (fun u i => u.releasePoint p i) s).counts.get q =
      if q = p then s.counts.get q - l.length else s.counts.get q := by
  induction l generalizing s with
  | nil => exact (ite_self _).symm
  | cons i l ih =>
    have hrest : ∀ j ∈ l, ((s.releasePoint p i).slot j).isSome := fun j hj => by
      rw [State.slot_releasePoint]
      split
      · rw [Option.isSome_map]
        exact h i (List.mem_cons_self ..)
      · exact h j (List.mem_cons_of_mem _ hj)
    rw [List.foldl_cons, ih hrest, State.counts_releasePoint (h i (List.mem_cons_self ..))]
    split
    · rw [List.length_cons, Nat.sub_sub, Nat.add_comm]
    · rfl

/-! ### The clamp marks (R67) -/

/-- The marks of entries with their bits, each within the field: a bit is set when one of its entries is clamped. -/
theorem State.getLsbD_marks (s : State) (l : List (BatchEntry × Nat)) (hl : ∀ x ∈ l, x.2 < 16) (m : BitVec 16) (k : Nat) :
    (l.foldl (fun m (e, k) => if s.clampsEntry e then m ||| BitVec.twoPow 16 k else m) m).getLsbD k = true ↔
      m.getLsbD k = true ∨ ∃ e, (e, k) ∈ l ∧ s.clampsEntry e = true := by
  induction l generalizing m with
  | nil => simp
  | cons x l ih =>
    obtain ⟨e, n⟩ := x
    have hn : n < 16 := hl (e, n) (List.mem_cons_self ..)
    rw [List.foldl_cons, ih fun y hy => hl y (List.mem_cons_of_mem _ hy)]
    simp only [List.mem_cons, Prod.mk.injEq]
    by_cases hclamp : s.clampsEntry e = true
    · rw [if_pos hclamp, BitVec.getLsbD_or, BitVec.getLsbD_twoPow, Bool.or_eq_true, or_assoc]
      refine or_congr_right ⟨?_, ?_⟩
      · rintro (hk | ⟨e', he', hclamp'⟩)
        · have hkn : n = k := by simpa [hn] using hk
          exact ⟨e, .inl ⟨rfl, hkn.symm⟩, hclamp⟩
        · exact ⟨e', .inr he', hclamp'⟩
      · rintro ⟨e', ⟨-, rfl⟩ | he', hclamp'⟩
        · exact .inl (by simp [hn])
        · exact .inr ⟨e', he', hclamp'⟩
    · rw [if_neg hclamp]
      refine or_congr_right (exists_congr fun e' => and_congr_left fun hclamp' => (or_iff_right ?_).symm)
      rintro ⟨rfl, -⟩
      exact hclamp hclamp'

/-- An entry is clamped when its value lies outside the limits of its point. -/
theorem State.clampsEntry_iff (s : State) (e : BatchEntry) :
    s.clampsEntry e = true ↔ ∃ pt ∈ s.slot e.point, pt.defn.inRange (pt.defn.kind.num e.value) = false := by
  simp [State.clampsEntry, Option.any_eq_true]

/-- The clamp marks of a batch: bit k stands for the entry at place k (R198). -/
theorem State.getLsbD_clampMarks (s : State) {b : Batch} (hb : b.length ≤ 16) (k : Nat) :
    (s.clampMarks b).getLsbD k = true ↔
      ∃ e, b[k]? = some e ∧ ∃ pt ∈ s.slot e.point, pt.defn.inRange (pt.defn.kind.num e.value) = false := by
  have hplaces : ∀ x ∈ b.zipIdx, x.2 < 16 := fun x hx => Nat.lt_of_lt_of_le (List.snd_lt_of_mem_zipIdx hx) hb
  unfold State.clampMarks
  rw [State.getLsbD_marks s _ hplaces, or_iff_right (by simp)]
  simp only [List.mk_mem_zipIdx_iff_getElem?, State.clampsEntry_iff]

/-! ### BATCH_COMMIT (R65 to R67) -/

section
variable {s : State} {p : Port} {b : Batch}

/-- A commit: the writes in entry order, then the releases in ascending order, and the batch closed (R65, R66). -/
theorem State.commit_eq (s : State) (p : Port) (b : Batch) (release : Bool) :
    s.commit p b release =
      ((s.commitReleases b release).foldl (fun u i => u.releasePoint p i) (b.foldl State.commitEntry s)).setBatch p none :=
  rfl

/-- A commit leaves the ports alone. -/
theorem State.commit_ports (s : State) (p : Port) (b : Batch) (release : Bool) : (s.commit p b release).ports = s.ports := by
  have hframe := s.commit_frame p b release
  generalize s.commit p b release = w at hframe ⊢
  have hports := congrArg State.ports hframe
  exact hports

/-- A commit at one slot: the writes of the entries, then the release when the point is among the released ones. -/
theorem State.slot_commit (s : State) (p : Port) (b : Batch) (release : Bool) (j : PointIx) :
    (s.commit p b release).slot j =
      if j ∈ s.commitReleases b release then ((b.foldl State.commitEntry s).slot j).map Point.release
      else (b.foldl State.commitEntry s).slot j := by
  rw [State.commit_eq, State.slot_setBatch, State.slot_releases (State.commitReleases_nodup s b release)]

/-- A commit writes the point of each entry, and ends its claim when R66 asks for it. -/
theorem State.slot_commit_of_mem (hb : (b.map BatchEntry.point).Nodup) {e : BatchEntry} (he : e ∈ b) {pt : Point}
    (hpt : s.slot e.point = some pt) (release : Bool) :
    (s.commit p b release).slot e.point =
      some (if release || pt.holder.isOnce then (pt.committed e.value).release else pt.committed e.value) := by
  have hreleased : e.point ∈ s.commitReleases b release ↔ (release || pt.holder.isOnce) = true := by
    rw [State.mem_commitReleases, and_iff_right (List.mem_map_of_mem he), hpt, Bool.or_eq_true]
    simp
  rw [State.slot_commit, State.slot_commitEntries hb he, hpt]
  simp only [hreleased]
  split <;> rfl

/-- A commit leaves the slots of other points alone. -/
theorem State.slot_commit_of_not_mem {j : PointIx} (h : j ∉ b.map BatchEntry.point) (release : Bool) :
    (s.commit p b release).slot j = s.slot j := by
  have hkept : j ∉ s.commitReleases b release := fun hj => h ((State.mem_commitReleases ..).1 hj).1
  rw [State.slot_commit, if_neg hkept, State.slot_commitEntries_of_not_mem h]

/-- A commit whose entries all pass counts its port down by one for each point it releases. -/
theorem State.counts_commit (hb : (b.map BatchEntry.point).Nodup) (hpass : ∀ x ∈ b, s.commitCheck p x = none) (release : Bool)
    (q : Port) :
    (s.commit p b release).counts.get q =
      if q = p then s.counts.get q - (s.commitReleases b release).length else s.counts.get q := by
  have hdefined : ∀ i ∈ s.commitReleases b release, ((b.foldl State.commitEntry s).slot i).isSome := fun i hi => by
    obtain ⟨e, he, rfl⟩ := List.mem_map.1 ((State.mem_commitReleases ..).1 hi).1
    rw [State.slot_commitEntries hb he, Option.isSome_map]
    exact State.isSome_slot_of_commitCheck (hpass e he)
  have hcounts : (b.foldl State.commitEntry s).counts = s.counts := foldl_field State.counts _ State.commitEntry_counts b s
  rw [State.commit_eq, State.setBatch_counts, State.counts_releases hdefined, hcounts]

end

/-- What a request's event leaves but for its answer, when its effect leaves the ports alone. -/
theorem State.answered_frame {s w : State} (hw : w.ports = s.ports) (p : Port) (status : Status) (body : Body) :
    { (w.answer p status body).settle with ports := s.ports } = w := by
  rw [← hw]
  rfl

/-- Settles O33: a commit is its writes, its releases and the close of the batch; each reaches a slot and a count once. -/
theorem commitWritesEveryEntry : Obligations.CommitWritesEveryEntry := by
  refine ⟨fun s p release b hdue hb hsound hpass => ?_, State.mem_commitReleases, State.commitReleases_ascending,
    fun _ _ _ => State.commitEntry_of_slot, fun s b k hlen => s.getLsbD_clampMarks hlen k⟩
  have hexec := exec_batchCommit_passed hdue hb (State.commitBarrier_eq_none hpass)
  have hports := s.commit_ports p b release
  have hframe := s.commit_frame p b release
  refine ⟨_, hexec, replied_answer hports p _ _, State.answered_frame hports p _ _, fun q => ?_, fun e he pt hpt => ?_,
    fun i hi => ?_, fun q => ?_, ?_⟩
  · rw [State.settle_batches, State.answer_batches, State.commit_batches, PerPort.get_set]
  · rw [State.slot_settle, State.slot_answer]
    exact State.slot_commit_of_mem hsound.2 he hpt release
  · rw [State.slot_settle, State.slot_answer]
    exact State.slot_commit_of_not_mem hi release
  · rw [State.settle_counts, State.answer_counts]
    exact State.counts_commit hsound.2 hpass release q
  · generalize s.commit p b release = w at hframe ⊢
    exact congrArg (fun w : State => { w with ports := s.ports }) hframe

end Sys2Proof.Machine

/-! PROOFS. Subscriptions, notices and ageing: cause sets, what one cause does to a notice unit, the soundness of queues and owed
maps through every command; then the requests of chapter 4 and the ageing event at a tick. -/

namespace Sys2Proof.Machine

/-! ### Cause sets and subjects (R82, R85, R199) -/

/-- The number of a cause is its place in the list of causes. -/
theorem Cause.number_eq_ctorIdx (c : Cause) : c.number = c.ctorIdx := by
  cases c <;> rfl

/-- Two causes with the same number are the same. -/
theorem Cause.number_inj {c k : Cause} : c.number = k.number ↔ c = k := by
  refine ⟨fun h => ?_, congrArg _⟩
  rw [Cause.number_eq_ctorIdx, Cause.number_eq_ctorIdx] at h
  rw [← Cause.ofNat_ctorIdx c, h, Cause.ofNat_ctorIdx]

/-- Every cause has a bit of the set (R199). -/
theorem Cause.number_lt (c : Cause) : c.number < 12 := by
  cases c <;> decide

/-- A set with a cause added has that cause and those it had. -/
theorem CauseSet.has_add (cs : CauseSet) (c k : Cause) :
    CauseSet.has (CauseSet.add cs c) k = true ↔ CauseSet.has cs k = true ∨ k = c := by
  simp only [CauseSet.has, CauseSet.add, BitVec.getLsbD_or, BitVec.getLsbD_twoPow, Bool.or_eq_true, Bool.and_eq_true,
    decide_eq_true_eq, Cause.number_lt, true_and, Cause.number_inj, eq_comm (a := c)]

/-- The empty set has no cause. -/
theorem CauseSet.has_empty (k : Cause) : CauseSet.has CauseSet.empty k = false :=
  BitVec.getLsbD_zero

/-- A set with a cause added is not empty (R82). -/
theorem CauseSet.add_ne_zero (cs : CauseSet) (c : Cause) : CauseSet.add cs c ≠ 0 := by
  intro h
  have hc := (CauseSet.has_add cs c c).2 (.inr rfl)
  rw [h] at hc
  exact Bool.false_ne_true ((CauseSet.has_empty c).symm.trans hc)

/-- Two subjects with the same number are the same. -/
theorem Subject.number_inj {x y : Subject} : x.number = y.number ↔ x = y := by
  refine ⟨fun h => ?_, congrArg _⟩
  cases x with
  | point i =>
    cases y with
    | point j => exact congrArg Subject.point (Fin.ext h)
    | order m =>
      simp only [Subject.number] at h
      omega
  | order n =>
    cases y with
    | point j =>
      simp only [Subject.number] at h
      omega
    | order m => exact congrArg Subject.order (Fin.ext (Nat.add_left_cancel h))

/-! ### One cause taken (R83 to R85) -/

section
variable {u : NoticeUnit} {x : Subject} {c : Cause} {st : SubjectState}

/-- The unit has a notice for a subject when one of its notices is about it. -/
theorem NoticeUnit.any_subject_iff : (u.queue.any fun n => n.subject = x) = true ↔ x ∈ u.queued := by
  simp [NoticeUnit.queued]

/-- A cause for a queued subject merges into its notice (R83). -/
theorem NoticeUnit.take_queued (h : x ∈ u.queued) :
    u.take x c st = { u with queue := u.queue.map fun n => if n.subject = x then n.merge c st else n } :=
  if_pos (NoticeUnit.any_subject_iff.2 h)

/-- A cause for another subject makes a notice at the tail while the queue has room (R84). -/
theorem NoticeUnit.take_new (h : x ∉ u.queued) (hroom : u.queue.length < Config.queueSize) :
    u.take x c st = { u with queue := u.queue ++ [⟨x, CauseSet.add CauseSet.empty c, st, 0⟩] } :=
  (if_neg fun hany => h (NoticeUnit.any_subject_iff.1 hany)).trans (if_pos hroom)

/-- A cause for another subject is owed while the queue is full (R85). -/
theorem NoticeUnit.take_owed (h : x ∉ u.queued) (hfull : Config.queueSize ≤ u.queue.length) :
    u.take x c st = { u with owed := oweCause x c u.owed } :=
  (if_neg fun hany => h (NoticeUnit.any_subject_iff.1 hany)).trans (if_neg (Nat.not_lt.2 hfull))

/-- A notice keeps its subject when a cause merges into it. -/
theorem Notice.subject_merge (n : Notice) : (n.merge c st).subject = n.subject := rfl

/-- The notices keep their subjects and their places when a cause merges into one of them. -/
theorem NoticeUnit.queued_merged :
    (u.queue.map fun n => if n.subject = x then n.merge c st else n).map Notice.subject = u.queued := by
  rw [List.map_map]
  refine List.map_congr_left fun n _ => ?_
  rw [Function.comp_apply, apply_ite Notice.subject, Notice.subject_merge, ite_self]

/-- A merge moves the merged count by at most 1, and not past its greatest value (R82). -/
theorem Notice.merged_merge_le {n : Notice} (h : n.merged ≤ Config.mergedMax) : (n.merge c st).merged ≤ Config.mergedMax := by
  unfold Notice.merge
  dsimp only
  split <;> omega

/-- An owed map with an entry in front has what the entry has and what the rest has. -/
theorem exists_mem_owed_cons {o : Owed} {rest : List Owed} {P : Owed → Prop} :
    (∃ a ∈ o :: rest, P a) ↔ P o ∨ ∃ a ∈ rest, P a := by
  simp only [List.mem_cons, or_and_right, exists_or, exists_eq_left]

/-- A cause that is owed joins the set of its subject; the sets of other subjects stay (R85). -/
theorem exists_mem_oweCause (owed : List Owed) (y : Subject) (k : Cause) :
    (∃ o ∈ oweCause x c owed, o.subject = y ∧ CauseSet.has o.causes k = true) ↔
      (y = x ∧ k = c) ∨ ∃ o ∈ owed, o.subject = y ∧ CauseSet.has o.causes k = true := by
  have halone : CauseSet.has (CauseSet.add CauseSet.empty c) k = true ↔ k = c := by
    rw [CauseSet.has_add, CauseSet.has_empty]
    simp
  induction owed with
  | nil => simp [oweCause, halone, eq_comm (a := x)]
  | cons o rest ih =>
    unfold oweCause
    split
    · rename_i hsame
      simp only [exists_mem_owed_cons, CauseSet.has_add, hsame, eq_comm (a := x)]
      rw [and_or_left, or_assoc, or_left_comm]
    · split
      · simp only [exists_mem_owed_cons, halone, eq_comm (a := x)]
      · simp only [exists_mem_owed_cons, ih]
        exact or_left_comm

/-- The subjects of an owed map to which a cause is added. -/
theorem mem_subjects_oweCause (owed : List Owed) (y : Subject) :
    y ∈ (oweCause x c owed).map Owed.subject ↔ y = x ∨ y ∈ owed.map Owed.subject := by
  induction owed with
  | nil => simp [oweCause]
  | cons o rest ih =>
    unfold oweCause
    split
    · rename_i hsame
      simp [hsame]
    · split
      · simp
      · rw [List.map_cons, List.map_cons, List.mem_cons, List.mem_cons, ih, or_left_comm]

/-- An owed map in rising order stays so (R85). -/
theorem ascending_oweCause {owed : List Owed} (h : ((owed.map Owed.subject).map Subject.number).Pairwise (· < ·)) :
    (((oweCause x c owed).map Owed.subject).map Subject.number).Pairwise (· < ·) := by
  induction owed with
  | nil => exact List.pairwise_singleton ..
  | cons o rest ih =>
    simp only [List.map_cons, List.pairwise_cons, List.forall_mem_map] at h
    obtain ⟨hfirst, hrest⟩ := h
    unfold oweCause
    split
    · rename_i hsame
      simp only [List.map_cons, List.pairwise_cons, List.forall_mem_map]
      exact ⟨hsame ▸ hfirst, hrest⟩
    · rename_i hother
      split
      · rename_i hbelow
        simp only [List.map_cons, List.pairwise_cons, List.forall_mem_cons, List.forall_mem_map]
        exact ⟨⟨hbelow, fun o' ho' => Nat.lt_trans hbelow (hfirst o' ho')⟩, hfirst, hrest⟩
      · rename_i hnotBelow
        have habove : o.subject.number < x.number :=
          Nat.lt_of_le_of_ne (Nat.not_lt.1 hnotBelow) fun heq => hother (Subject.number_inj.1 heq)
        simp only [List.map_cons, List.pairwise_cons]
        refine ⟨fun n hn => ?_, ih hrest⟩
        obtain ⟨y, hy, rfl⟩ := List.mem_map.1 hn
        rcases (mem_subjects_oweCause rest y).1 hy with rfl | hy
        · exact habove
        · obtain ⟨o', ho', rfl⟩ := List.mem_map.1 hy
          exact hfirst o' ho'

/-- No cause set of an owed map to which a cause is added is empty (R82). -/
theorem causes_oweCause {owed : List Owed} (h : ∀ o ∈ owed, o.causes ≠ 0) : ∀ o ∈ oweCause x c owed, o.causes ≠ 0 := by
  induction owed with
  | nil => simpa [oweCause] using CauseSet.add_ne_zero _ c
  | cons o rest ih =>
    obtain ⟨hfirst, hrest⟩ := List.forall_mem_cons.1 h
    unfold oweCause
    split
    · exact List.forall_mem_cons.2 ⟨CauseSet.add_ne_zero _ c, hrest⟩
    · split
      · exact List.forall_mem_cons.2 ⟨CauseSet.add_ne_zero _ c, h⟩
      · exact List.forall_mem_cons.2 ⟨hfirst, ih hrest⟩

/-! ### The queue and the owed map stay sound (R82 to R88) -/

/-- The soundness of a unit reads its queue and its owed map alone. -/
theorem NoticeUnit.sound.same {v : NoticeUnit} (hu : u.sound) (hq : v.queue = u.queue) (ho : v.owed = u.owed) : v.sound := by
  unfold NoticeUnit.sound NoticeUnit.queued NoticeUnit.owing
  rw [hq, ho]
  exact hu

/-- A unit with no notice and no cause owed is sound. -/
theorem NoticeUnit.sound_of_empty (hq : u.queue = []) (ho : u.owed = []) : u.sound := by
  unfold NoticeUnit.sound NoticeUnit.queued NoticeUnit.owing
  simp [hq, ho]

/-- A unit that takes a cause stays sound (R83 to R85). -/
theorem NoticeUnit.sound.take (hu : u.sound) (x : Subject) (c : Cause) (st : SubjectState) : (u.take x c st).sound := by
  obtain ⟨hlen, hnodup, hrising, hfull, hapart, hnotices, howed⟩ := hu
  by_cases hx : x ∈ u.queued
  · rw [NoticeUnit.take_queued hx]
    unfold NoticeUnit.sound
    have hqueued : NoticeUnit.queued { u with queue := u.queue.map fun n => if n.subject = x then n.merge c st else n } =
      u.queued := NoticeUnit.queued_merged
    rw [hqueued]
    refine ⟨by rwa [List.length_map], hnodup, hrising, by rwa [List.length_map], hapart, List.forall_mem_map.2 fun n hn => ?_,
      howed⟩
    obtain ⟨hcauses, hmerged⟩ := hnotices n hn
    split
    · exact ⟨CauseSet.add_ne_zero _ c, Notice.merged_merge_le hmerged⟩
    · exact ⟨hcauses, hmerged⟩
  · rcases Nat.lt_or_ge u.queue.length Config.queueSize with hroom | hfilled
    · have hnone : u.owed = [] := Decidable.byContradiction fun hne => Nat.ne_of_lt hroom (hfull hne)
      rw [NoticeUnit.take_new hx hroom]
      have hqueued : NoticeUnit.queued { u with queue := u.queue ++ [⟨x, CauseSet.add CauseSet.empty c, st, 0⟩] } =
        u.queued ++ [x] := List.map_append
      unfold NoticeUnit.sound
      rw [hqueued]
      refine ⟨?_, ?_, hrising, fun hne => absurd hnone hne, ?_, ?_, howed⟩
      · rw [List.length_append]
        exact hroom
      · exact List.nodup_append.2 ⟨hnodup, List.nodup_cons.2 ⟨List.not_mem_nil, List.nodup_nil⟩, fun y hy z hz hyz =>
          hx (List.mem_singleton.1 hz ▸ hyz ▸ hy)⟩
      · simp [NoticeUnit.owing, hnone]
      · exact List.forall_mem_append.2 ⟨hnotices, List.forall_mem_singleton.2 ⟨CauseSet.add_ne_zero _ c, Nat.zero_le _⟩⟩
    · rw [NoticeUnit.take_owed hx hfilled]
      refine ⟨hlen, hnodup, ascending_oweCause hrising, fun _ => Nat.le_antisymm hlen hfilled, fun y hy => ?_, hnotices,
        causes_oweCause howed⟩
      rcases (mem_subjects_oweCause u.owed y).1 hy with rfl | hy
      · exact hx
      · exact hapart y hy

/-- A unit that takes causes stays sound. -/
theorem NoticeUnit.sound.takeAll (hu : u.sound) (t : State) (cs : List (Subject × Cause)) : (u.takeAll t cs).sound := by
  unfold NoticeUnit.takeAll
  induction cs generalizing u with
  | nil => exact hu
  | cons c cs ih => exact ih (hu.take ..)

/-- A unit whose queue loses notices at its head and that drains its owed map stays sound: a cause stays owed only when the
drain has filled the queue again (R85, R88). -/
theorem NoticeUnit.sound.drained (hu : u.sound) (s : State) (k : Nat) :
    (s.drained { u with queue := u.queue.drop k }).sound := by
  obtain ⟨hlen, hnodup, hrising, -, hapart, hnotices, howed⟩ := hu
  have hkept : (u.queue.drop k).length ≤ Config.queueSize := Nat.le_trans (List.drop_sublist ..).length_le hlen
  have howingNodup : u.owing.Nodup := 
    List.Pairwise.of_map Subject.number (fun _ _ hlt heq => Nat.ne_of_lt hlt (congrArg Subject.number heq)) hrising
  unfold State.drained
  dsimp only
  generalize hroom : Config.queueSize - (u.queue.drop k).length = room
  have hqueued : ((u.queue.drop k ++ (u.owed.take room).map fun o => o.resend (s.subjectState o.subject)).map Notice.subject) =
      u.queued.drop k ++ u.owing.take room := by
    rw [List.map_append, List.map_map, List.map_drop]
    exact congrArg _ (List.map_take ..)
  have hdisjoint : ∀ y ∈ u.owing.take room, ∀ z ∈ u.owing.drop room, y ≠ z := by
    rw [← List.take_append_drop room u.owing] at howingNodup
    exact (List.nodup_append.1 howingNodup).2.2
  have howing : (u.owed.drop room).map Owed.subject = u.owing.drop room := List.map_drop ..
  unfold NoticeUnit.sound NoticeUnit.queued NoticeUnit.owing
  dsimp only
  rw [hqueued, howing]
  refine ⟨?_, ?_, ?_, fun hne => ?_, fun x hx => ?_, ?_, fun o ho => howed o (List.mem_of_mem_drop ho)⟩
  · rw [List.length_append, List.length_map, List.length_take]
    omega
  · exact List.nodup_append.2 ⟨hnodup.sublist (List.drop_sublist ..), howingNodup.sublist (List.take_sublist ..),
      fun y hy z hz hyz => hapart z (List.mem_of_mem_take hz) (hyz ▸ List.mem_of_mem_drop hy)⟩
  · exact hrising.sublist ((List.drop_sublist ..).map _)
  · have hleft : room < u.owed.length := Nat.lt_of_not_le fun hle => hne (List.drop_eq_nil_of_le hle)
    rw [List.length_append, List.length_map, List.length_take]
    omega
  · rw [List.mem_append, not_or]
    exact ⟨fun hq => hapart x (List.mem_of_mem_drop hx) (List.mem_of_mem_drop hq), fun ht => hdisjoint x ht x hx rfl⟩
  · refine List.forall_mem_append.2 ⟨fun n hn => hnotices n (List.mem_of_mem_drop hn), List.forall_mem_map.2 fun o _ => ?_⟩
    exact ⟨CauseSet.add_ne_zero _ .resent, Nat.zero_le _⟩

end

end Sys2Proof.Machine

namespace Sys2Proof.Machine

/-! ### The notice units after each operation -/

section
variable {s t : State}

/-- The soundness of the notice units reads their queues and owed maps alone. -/
theorem State.NoticesSound.ofUnits (hs : s.NoticesSound) (hq : ∀ q, (t.notices.get q).queue = (s.notices.get q).queue)
    (ho : ∀ q, (t.notices.get q).owed = (s.notices.get q).owed) : t.NoticesSound := fun q => (hs q).same (hq q) (ho q)

/-- Notice units that stay as they are stay sound. -/
theorem State.NoticesSound.same (hs : s.NoticesSound) (hn : t.notices = s.notices) : t.NoticesSound := by
  unfold State.NoticesSound
  rw [hn]
  exact hs

/-- The end of an event leaves the notice units alone. -/
theorem State.NoticesSound.settled (hs : s.NoticesSound) : s.settle.NoticesSound := hs.same rfl

/-- An answer and the end of its event leave the notice units alone. -/
theorem State.NoticesSound.replied {p : Port} {st : Status} {b : Body} (hs : s.NoticesSound) :
    (s.answer p st b).settle.NoticesSound := hs.same rfl

/-- Raised causes are taken by the units (R83 to R85). -/
theorem State.NoticesSound.raiseAll (hs : s.NoticesSound) (rs : List Raise) : (s.raiseAll rs).NoticesSound := by
  intro q
  rw [State.raiseAll_eq, PerPort.get_map]
  exact (hs q).takeAll ..

/-- One port's unit replaced by a sound one. -/
theorem State.NoticesSound.setNotices (hs : s.NoticesSound) {p : Port} {u : NoticeUnit} (hu : u.sound) :
    (s.setNotices p u).NoticesSound := by
  intro q
  rw [State.setNotices_notices, PerPort.get_set]
  split
  · exact hu
  · exact hs q

/-- A subscription made or ended leaves the queues and the owed maps alone. -/
theorem State.NoticesSound.setSub (hs : s.NoticesSound) (p : Port) (i : PointIx) (x : Option Sub) :
    (s.setSub p i x).NoticesSound :=
  hs.setNotices ((hs p).same rfl rfl)

/-- An accepted write leaves the queues and the owed maps alone, but for the causes it raises. -/
theorem State.NoticesSound.store (hs : s.NoticesSound) (i : PointIx) (pt : Point) (v : Word) (q : Quality) :
    (s.store i pt v q).NoticesSound := by
  intro p
  rw [State.store_eq, State.followSubs_notices, PerPort.get_map]
  exact (hs p).same rfl rfl

/-- A release raises CLAIM_GRANTED at most (R46). -/
theorem State.NoticesSound.releasePoint (hs : s.NoticesSound) (p : Port) (i : PointIx) : (s.releasePoint p i).NoticesSound := by
  unfold State.releasePoint
  split
  · exact hs
  · refine State.NoticesSound.raiseAll ?_ _
    exact hs.same rfl

/-- A slot that is replaced ends subscriptions and raises UNDEFINED (R80). -/
theorem State.NoticesSound.replaceSlot (hs : s.NoticesSound) (i : PointIx) (x : Option Point) :
    (s.replaceSlot i x).NoticesSound := by
  intro q
  rw [State.notices_replaceSlot]
  refine NoticeUnit.sound.takeAll ?_ _ _
  exact (hs q).same rfl rfl

/-- A table reset empties the queues and the owed maps (R93). -/
theorem State.noticesSound_tableReset (s : State) : s.tableReset.NoticesSound := by
  intro q
  have hunit : s.tableReset.notices.get q = (s.notices.get q).afterReset s.points := PerPort.get_map ..
  rw [hunit]
  exact NoticeUnit.sound_of_empty rfl rfl

/-- The ageing event raises QUALITY at most (R97). -/
theorem State.NoticesSound.ageTable (hs : s.NoticesSound) : s.ageTable.NoticesSound := by
  unfold State.ageTable
  refine State.NoticesSound.raiseAll ?_ _
  exact hs.same rfl

/-- A tick at the claim arbiter raises causes at most (R50, R51). -/
theorem State.NoticesSound.arbiterTick (hs : s.NoticesSound) : s.arbiterTick.NoticesSound := by
  unfold State.arbiterTick
  refine State.NoticesSound.raiseAll ?_ _
  exact hs.same rfl

/-- A RELEASE of every point a port holds raises CLAIM_GRANTED at most (R47). -/
theorem State.NoticesSound.releaseAll (hs : s.NoticesSound) (p : Port) : (s.releaseAll p).NoticesSound := by
  unfold State.releaseAll
  refine State.NoticesSound.raiseAll ?_ _
  exact hs.same rfl

/-- A port reset empties the queue and the owed map of its port and raises CLAIM_GRANTED at most (R47, R92). -/
theorem State.NoticesSound.portReset (hs : s.NoticesSound) (p : Port) (w : List Entry) : (s.portReset p w).NoticesSound := by
  have hempty : NoticeUnit.reset.sound := NoticeUnit.sound_of_empty rfl rfl
  unfold State.portReset
  refine State.NoticesSound.raiseAll ?_ _
  exact (hs.setNotices (p := p) hempty).same rfl

/-- The parts of a write keep the notice units sound. -/
theorem noticesSound_writes : KeptByWrites State.NoticesSound where
  store _ i pt _ q _ _ hs := hs.store i pt _ q
  raise _ rs hs := hs.raiseAll rs
  release _ p i _ _ _ hs := hs.releasePoint p i
  batch _ _ _ hs := hs.same rfl

/-- The executor's choice leaves the notice units alone. -/
theorem State.freeExecutor_notices (s : State) : s.freeExecutor.notices = s.notices := State.startRun_notices _

/-- The end of a run leaves the notice units alone. -/
theorem State.endRun_notices (s : State) (n : OrderIx) (o : Order) : (s.endRun n o).notices = s.notices :=
  (congrArg State.notices (State.endRun_frame s n o) :)

/-- A copy event writes and raises causes at most (R128, R139). -/
theorem State.NoticesSound.takeCopy (hs : s.NoticesSound) (r : Run) (o : Order) : (s.takeCopy r o).NoticesSound := by
  have reported : ((s.applyCopy (s.copyOutcome r.order o r.position)).modifyOrder r.order fun o' =>
      o'.report (s.copyOutcome r.order o r.position)).NoticesSound :=
    (noticesSound_writes.applyCopy r.order o r.position hs).same rfl
  unfold State.takeCopy
  dsimp only
  split
  · exact reported.same (State.freeExecutor_notices _)
  · split
    · exact (reported.same (State.freeExecutor_notices _)).raiseAll _
    · split
      · refine State.NoticesSound.raiseAll ?_ _
        exact reported.same rfl
      · exact (reported.same (State.endRun_notices ..)).raiseAll _

/-- What follows a completion leaves the notice units alone. -/
theorem State.nextConversion_notices (s : State) (a b : Nat) : (s.nextConversion a b).notices = s.notices :=
  (congrArg State.notices (State.nextConversion_frame s a b) :)

end

/-- Every command keeps the notice units sound: it raises causes, empties queues, or removes notices and drains. -/
theorem noticesSound_exec (c : Instr) (s t : State) (hs : s.NoticesSound) (h : exec c s = .next t) : t.NoticesSound := by
  have hnotices := congrArg State.notices (exec_putBack h)
  cases c with
  | coldReset =>
    cases h
    intro q
    exact (PerPort.get_all NoticeUnit.reset q).symm ▸ NoticeUnit.sound_of_empty rfl rfl
  | write p entries =>
    unfold exec execWrite at h
    refine onRequest_keeps hs (fun _ => ?_) h
    split
    · exact hs.replied
    · exact (noticesSound_writes.takeWrites p _ hs).replied
  | define p args =>
    unfold exec execDefine at h
    refine onRequest_keeps hs (fun _ => ?_) h
    split
    · split
      · exact hs.replied
      · exact (hs.replaceSlot _ _).replied
    · exact hs.replied
  | undefine p point =>
    unfold exec execUndefine at h
    refine onRequest_keeps hs (fun _ => ?_) h
    split
    · exact hs.replied
    · split
      · exact hs.replied
      · split
        · exact hs.replied
        · exact (hs.replaceSlot _ none).replied
  | tableReset p =>
    unfold exec execTableReset at h
    refine onRequest_keeps hs (fun _ => ?_) h
    exact (State.noticesSound_tableReset _).settled
  | release p args =>
    unfold exec execRelease at h
    refine onRequest_keeps hs (fun _ => ?_) h
    split
    · exact hs.replied
    · exact (KeptByTable.takeList (fun _ i _ hw => hw.releasePoint p i) _ hs).replied
    · exact (hs.releaseAll p).replied
  | tickAgeing =>
    unfold exec execTickAgeing at h
    exact event_keeps hs (fun _ _ => hs.ageTable.settled) h
  | pointStale i =>
    unfold exec execPointStale at h
    exact event_keeps hs (fun _ _ => hs.ageTable.settled) h
  | claimArbiterTick =>
    unfold exec execClaimArbiterTick at h
    exact event_keeps hs (fun _ _ => hs.arbiterTick.settled) h
  | leaseLapse i =>
    unfold exec execLeaseLapse at h
    exact event_keeps hs (fun _ _ => hs.arbiterTick.settled) h
  | waitExpiry i p =>
    unfold exec execWaitExpiry at h
    exact event_keeps hs (fun _ _ => hs.arbiterTick.settled) h
  | batchCommit p release =>
    unfold exec execBatchCommit at h
    refine onRequest_keeps hs (fun _ => ?_) h
    split
    · exact hs.replied
    · split
      · exact hs.replied
      · exact (noticesSound_writes.commit p _ release ‹_› hs).replied
  | subscribe p args =>
    unfold exec execSubscribe at h
    refine onRequest_keeps hs (fun _ => ?_) h
    split
    · split
      · exact hs.replied
      · exact ((hs.setSub p _ _).raiseAll [⟨p, _, .subscribed⟩]).replied
    · exact hs.replied
  | unsubscribe p point =>
    unfold exec execUnsubscribe at h
    refine onRequest_keeps hs (fun _ => ?_) h
    split
    · exact hs.replied
    · split
      · exact hs.replied
      · exact (hs.setSub p _ none).replied
  | fetch p count =>
    unfold exec execFetch at h
    refine onRequest_keeps hs (fun _ => ?_) h
    dsimp only
    split
    · exact hs.replied
    · exact (hs.setNotices ((hs p).drained s count.toNat)).replied
  | orderDisarm p order =>
    unfold exec execOrderDisarm at h
    refine onRequest_keeps hs (fun _ => ?_) h
    split
    · exact hs.replied
    · rename_i n _
      split
      · exact hs.replied
      · split
        · refine (State.NoticesSound.raiseAll ?_ _).replied
          exact hs.same rfl
        · exact hs.replied
        · exact hs.same rfl
  | orderCopy =>
    unfold exec execOrderCopy at h
    refine event_keeps hs (fun _ _ => ?_) h
    split
    · exact hs.settled
    · split
      · exact (hs.same (State.freeExecutor_notices s)).settled
      · exact (hs.takeCopy _ _).settled
  | scanDisarm p =>
    unfold exec execScanDisarm at h
    refine onRequest_keeps hs (fun _ => ?_) h
    split
    · exact hs.replied
    · split
      · refine (State.NoticesSound.raiseAll ?_ _).replied
        exact hs.same rfl
      · exact hs.replied
  | conversionCompletion raw =>
    unfold exec execConversionCompletion at h
    refine event_keeps hs (fun _ _ => ?_) h
    split
    · exact hs.settled
    · split
      · exact hs.settled
      · rename_i e _
        have written := noticesSound_writes.scanWrite e raw hs
        exact ((written.same (State.nextConversion_notices ..)).raiseAll _).settled
  | portReset p =>
    unfold exec execPortReset at h
    have hreset : (s.resetOwnPort p).NoticesSound := hs.portReset p _
    refine onRequest_keeps hs (fun _ => ?_) h
    exact hreset.settled
  | forcePortReset p target =>
    unfold exec execForcePortReset at h
    refine onRequest_keeps hs (fun _ => ?_) h
    split
    · exact hs.replied
    · split
      · exact (hs.portReset p _).settled
      · exact (hs.portReset _ []).replied
  | _ => exact hs.same hnotices

/-- Settles O9: every command keeps the queues and the owed maps sound, and none reads the queue of commands. -/
theorem noticeQueuesStaySound : Obligations.NoticeQueuesStaySound :=
  keptByStep_of (fun _ _ hs => hs.same rfl) noticesSound_exec

end Sys2Proof.Machine

namespace Sys2Proof.Machine

/-! ### An accepted write at a subscription (R74 to R76) -/

section
variable {sub : Sub} {k : Kind} {v : Word}

/-- The condition WRITE is met by every accepted write. -/
theorem Sub.conditionCause_write (h : sub.condition = .write) : sub.conditionCause k v = some .written := by
  simp [Sub.conditionCause, h]

/-- The condition CHANGE is met by a value other than the reference, and so is a DEADBAND that is stored without its deadband. -/
theorem Sub.conditionCause_change (h : sub.condition = .change ∨ sub.condition = .deadband none) :
    sub.conditionCause k v = if v = sub.reference then none else some .changed := by
  rcases h with h | h <;> simp [Sub.conditionCause, h]

/-- The condition DEADBAND is met by a value as far from the reference as the deadband, or farther. -/
theorem Sub.conditionCause_deadband {d : Word} (h : sub.condition = .deadband (some d)) :
    sub.conditionCause k v = if d.toNat ≤ (k.num v - k.num sub.reference).natAbs then some .changed else none := by
  unfold Sub.conditionCause
  rw [h]
  rfl

/-- The cause by the condition is WRITTEN for the condition WRITE alone. -/
theorem Sub.conditionCause_eq_written : sub.conditionCause k v = some .written ↔ sub.condition = .write := by
  rcases hcond : sub.condition with _ | _ | _ | d
  · simp [Sub.conditionCause_write hcond]
  · rw [Sub.conditionCause_change (.inl hcond)]
    split <;> simp
  · rw [Sub.conditionCause_change (.inr hcond)]
    split <;> simp
  · rw [Sub.conditionCause_deadband hcond]
    split <;> simp

/-- The cause by the condition is WRITTEN or CHANGED. -/
theorem Sub.conditionCause_cases {c : Cause} (h : sub.conditionCause k v = some c) : c = .written ∨ c = .changed := by
  rcases hcond : sub.condition with _ | _ | _ | d
  · rw [Sub.conditionCause_write hcond] at h
    exact .inl (Option.some.inj h).symm
  · rw [Sub.conditionCause_change (.inl hcond)] at h
    exact .inr (Option.some.inj (Option.ite_none_left_eq_some.1 h).2).symm
  · rw [Sub.conditionCause_change (.inr hcond)] at h
    exact .inr (Option.some.inj (Option.ite_none_left_eq_some.1 h).2).symm
  · rw [Sub.conditionCause_deadband hcond] at h
    exact .inr (Option.some.inj (Option.ite_none_right_eq_some.1 h).2).symm

/-- The causes of an accepted write: the one by the condition, QUALITY at another quality, CLAMPED when clamped. -/
theorem Sub.mem_causes (c : Cause) (before after : Quality) (clamped : Bool) :
    c ∈ sub.causes k v before after clamped ↔
      sub.conditionCause k v = some c ∨ (c = .quality ∧ before ≠ after) ∨ (c = .clamped ∧ clamped = true) := by
  have hquality : c ∈ (if before = after then [] else [Cause.quality]) ↔ c = .quality ∧ before ≠ after := by
    split <;> simp_all
  have hclamped : c ∈ (if clamped then [Cause.clamped] else []) ↔ c = .clamped ∧ clamped = true := by
    split <;> simp_all
  rw [Sub.causes, List.mem_append, List.mem_append, hquality, hclamped, Option.mem_toList, or_assoc]

/-- A cause that the condition alone can raise. -/
theorem Sub.mem_causes_of_condition {c : Cause} (hq : c ≠ .quality) (hc : c ≠ .clamped) (before after : Quality) (clamped : Bool) :
    c ∈ sub.causes k v before after clamped ↔ sub.conditionCause k v = some c := by
  rw [Sub.mem_causes]
  simp [hq, hc]

/-- An accepted write leaves the condition of a subscription alone. -/
theorem Sub.condition_afterWrite : (sub.afterWrite k v).condition = sub.condition := by
  unfold Sub.afterWrite
  split <;> rfl

/-- The reference follows the stored value when the condition is met (R74, R75). -/
theorem Sub.reference_afterWrite :
    (sub.afterWrite k v).reference = if (sub.conditionCause k v).isSome then v else sub.reference := by
  unfold Sub.afterWrite
  split
  · rename_i c h
    rw [h]
    rfl
  · rename_i h
    rw [h]
    rfl

end

/-- Settles O21: the causes and the reference are read off the cause by the condition, condition by condition. -/
theorem subscriptionConditions : Obligations.SubscriptionConditions := by
  refine ⟨fun sub k v before after clamped => ?_, fun d => rfl, by decide, by decide⟩
  have hchanged : Cause.changed ∈ sub.causes k v before after clamped ↔ sub.conditionCause k v = some .changed :=
    Sub.mem_causes_of_condition (by decide) (by decide) ..
  refine ⟨?_, ?_, ?_, fun hcond => ⟨?_, ?_⟩, fun hcond => ⟨?_, ?_⟩, fun d hcond => ⟨?_, ?_⟩, Sub.condition_afterWrite⟩
  · exact (Sub.mem_causes_of_condition (by decide) (by decide) ..).trans Sub.conditionCause_eq_written
  · have hnot : sub.conditionCause k v ≠ some .quality := fun h => by simpa using Sub.conditionCause_cases h
    simp [Sub.mem_causes, hnot]
  · have hnot : sub.conditionCause k v ≠ some .clamped := fun h => by simpa using Sub.conditionCause_cases h
    simp [Sub.mem_causes, hnot]
  · simp [hchanged, Sub.conditionCause_write hcond]
  · rw [Sub.reference_afterWrite, Sub.conditionCause_write hcond]
    rfl
  · rw [hchanged, Sub.conditionCause_change hcond]
    simp
  · rw [Sub.reference_afterWrite, Sub.conditionCause_change hcond]
    split <;> simp_all
  · rw [hchanged, Sub.conditionCause_deadband hcond]
    simp
  · rw [Sub.reference_afterWrite, Sub.conditionCause_deadband hcond]
    split <;> rfl

end Sys2Proof.Machine

namespace Sys2Proof.Machine

/-! ### SUBSCRIBE and UNSUBSCRIBE (R72, R73) -/

/-- The arguments that give no condition: a code above 2, or a DEADBAND of 0. -/
theorem condition?_eq_none (args : SubscribeArgs) :
    condition? args = none ↔ 2 < args.condition.toNat ∨ (args.condition = 2 ∧ args.deadband = 0) := by
  rw [BitVec.toNat_eq (y := 2)]
  show _ ↔ _ ∨ (args.condition.toNat = 2 ∧ _)
  unfold condition?
  split
  · rename_i h
    simp [h]
  · rename_i h
    simp [h]
  · rename_i h
    simp [h]
  · rename_i h0 h1 h2
    have hlow : args.condition.toNat ≠ 0 ∧ args.condition.toNat ≠ 1 ∧ args.condition.toNat ≠ 2 := ⟨h0, h1, h2⟩
    exact iff_of_true rfl (.inl (by omega))

/-- The arguments that give a condition: WRITE, CHANGE, or DEADBAND with a deadband that is not 0. -/
theorem condition?_eq_some {args : SubscribeArgs} {c : Condition}
    (h : (args.condition = 0 ∧ c = .write) ∨ (args.condition = 1 ∧ c = .change) ∨
      (args.condition = 2 ∧ args.deadband ≠ 0 ∧ c = .deadband (some args.deadband))) : condition? args = some c := by
  rcases h with ⟨h, rfl⟩ | ⟨h, rfl⟩ | ⟨h, hdeadband, rfl⟩
  · simp [condition?, h]
  · simp [condition?, h]
  · simpa [condition?, h] using hdeadband

section
variable {s : State} {p : Port}

/-- A SUBSCRIBE that is due with arguments that fail checks 1 to 3 of R72. -/
theorem exec_subscribe_badArg {args : SubscribeArgs} (hdue : s.Due p (.subscribe args))
    (h : pointIx? args.point = none ∨ condition? args = none) :
    exec (.subscribe p args) s = .next (s.answer p .badArg .empty).settle := by
  show execSubscribe p args s = _
  rw [execSubscribe, onRequest_due hdue]
  split
  · rename_i hi hc
    rw [hi, hc] at h
    simp at h
  · rfl

/-- A SUBSCRIBE that is due with arguments that pass, at an undefined slot or at a point. -/
theorem exec_subscribe_passed {args : SubscribeArgs} {i : PointIx} {c : Condition} (hdue : s.Due p (.subscribe args))
    (hi : args.point.toNat = i.val) (hc : condition? args = some c) :
    (s.slot i = none → exec (.subscribe p args) s = .next (s.answer p .notDefined .empty).settle) ∧
      ∀ pt, s.slot i = some pt → exec (.subscribe p args) s =
        .next ((((s.setSub p i (some ⟨c.storedAt pt.defn.kind, pt.value⟩)).raise p (.point i) .subscribed).answer p .ok
          (.subscribed pt.value pt.seq pt.quality)).settle) := by
  have hexec : exec (.subscribe p args) s = execSubscribe p args s := rfl
  rw [hexec, execSubscribe, onRequest_due hdue, (pointIx?_eq_some _ i).2 hi, hc]
  constructor
  · intro h
    simp only [h]
  · intro pt h
    simp only [h]

/-- The port that subscribes takes SUBSCRIBED with its new subscription; the other ports keep their units. -/
theorem State.notices_subscribed (s : State) (p : Port) (i : PointIx) (x : Option Sub) (q : Port) :
    ((s.setSub p i x).raise p (.point i) .subscribed).notices.get q =
      if q = p then
        NoticeUnit.takeAll { s.notices.get q with subs := (s.notices.get q).subs.set i.val x } s [(.point i, .subscribed)]
      else s.notices.get q := by
  rw [State.raise_notices, PerPort.get_set]
  split
  · rename_i hq
    subst hq
    rw [State.setSub_notices, PerPort.get_set, if_pos rfl, State.subjectState_congr (s := s) (t := s.setSub q i x) rfl rfl]
    rfl
  · rename_i hq
    rw [State.setSub_notices, PerPort.get_set, if_neg hq]

/-- An UNSUBSCRIBE that is due at a point of the table: refused without a subscription, else the subscription is removed. -/
theorem exec_unsubscribe {field : Half} {i : PointIx} (hdue : s.Due p (.unsubscribe field)) (hi : field.toNat = i.val) :
    (s.sub p i = none → exec (.unsubscribe p field) s = .next (s.answer p .state .empty).settle) ∧
      (s.sub p i ≠ none → exec (.unsubscribe p field) s = .next ((s.setSub p i none).answer p .ok .empty).settle) := by
  have hexec : exec (.unsubscribe p field) s = execUnsubscribe p field s := rfl
  rw [hexec, execUnsubscribe, onRequest_due hdue, (pointIx?_eq_some _ i).2 hi]
  constructor
  · intro h
    simp [h]
  · intro h
    simp [h]

/-- An UNSUBSCRIBE that is due and names no point of the table. -/
theorem exec_unsubscribe_badArg {field : Half} (hdue : s.Due p (.unsubscribe field)) (h : 512 ≤ field.toNat) :
    exec (.unsubscribe p field) s = .next (s.answer p .badArg .empty).settle := by
  show execUnsubscribe p field s = _
  rw [execUnsubscribe, onRequest_due hdue, (pointIx?_eq_none _).2 h]

end

/-- Settles O34: each of the two requests is refused, or makes or removes its port's subscription and nothing else. -/
theorem subscriptionsStartAndEnd : Obligations.SubscriptionsStartAndEnd := by
  refine ⟨fun s p args hdue => ⟨fun hbad => onlyReplies_of (exec_subscribe_badArg hdue ?_), fun i c hi hcond => ?_⟩,
    fun s p field hdue => ⟨fun hbig => onlyReplies_of (exec_unsubscribe_badArg hdue hbig), fun i hi => ?_⟩,
    fun c => ?_, fun _ => rfl, rfl, rfl⟩
  · rwa [pointIx?_eq_none, condition?_eq_none]
  · obtain ⟨hundefined, hdefined⟩ := exec_subscribe_passed hdue hi (condition?_eq_some hcond)
    refine ⟨fun hnone => onlyReplies_of (hundefined hnone), fun pt hpt => ⟨_, hdefined pt hpt, replied_answer rfl p _ _,
      fun q => ?_, rfl⟩⟩
    rw [State.settle_notices, State.answer_notices, State.notices_subscribed]
    rfl
  · obtain ⟨hnone, hsome⟩ := exec_unsubscribe hdue hi
    refine ⟨fun h => onlyReplies_of (hnone h), fun h => ⟨_, hsome h, replied_answer rfl p _ _, fun q => ?_, rfl⟩⟩
    rw [State.settle_notices, State.answer_notices, State.setSub_notices, PerPort.get_set]
    split
    · rename_i hq
      rw [hq]
    · rfl
  · cases c <;> exact ⟨rfl, rfl⟩

end Sys2Proof.Machine

namespace Sys2Proof.Machine

/-! ### Causes raised (R79 to R85) -/

/-- The unit of the port for which a cause is raised takes it, with its subject's state as it stands. -/
theorem State.notices_raise_self (s : State) (p : Port) (x : Subject) (c : Cause) :
    (s.raise p x c).notices.get p = (s.notices.get p).take x c (s.subjectState x) := by
  rw [State.raise_notices, PerPort.get_set, if_pos rfl]

/-- The units of the other ports stay. -/
theorem State.notices_raise_other (s : State) {p q : Port} (h : q ≠ p) (x : Subject) (c : Cause) :
    (s.raise p x c).notices.get q = s.notices.get q := by
  rw [State.raise_notices, PerPort.get_set, if_neg h]

/-- A cause merges into the one notice of its subject, which keeps its place (R83). -/
theorem NoticeUnit.take_merge {u : NoticeUnit} {x : Subject} {before after : List Notice} {n : Notice}
    (hqueue : u.queue = before ++ n :: after) (hn : n.subject = x) (hothers : ∀ m ∈ before ++ after, m.subject ≠ x) (c : Cause)
    (st : SubjectState) : u.take x c st = { u with queue := before ++ n.merge c st :: after } := by
  have hmem : x ∈ u.queued := by
    rw [NoticeUnit.queued, hqueue]
    exact hn ▸ List.mem_map_of_mem (List.mem_append_right _ (List.mem_cons_self ..))
  have hstay : ∀ l : List Notice, (∀ m ∈ l, m.subject ≠ x) → (l.map fun m => if m.subject = x then m.merge c st else m) = l :=
    fun l hl => (List.map_congr_left fun m hm => if_neg (hl m hm)).trans (List.map_id' l)
  obtain ⟨hbefore, hafter⟩ := List.forall_mem_append.1 hothers
  rw [NoticeUnit.take_queued hmem, hqueue, List.map_append, List.map_cons, hstay before hbefore, hstay after hafter, if_pos hn]

/-- Settles O35: a raise is one cause taken by the unit of its port; several are taken in order, each by its port's unit. -/
theorem raiseMergesQueuesOrOwes : Obligations.RaiseMergesQueuesOrOwes := by
  refine ⟨fun s p x c => ?_, fun s => ?_, fun u t => ⟨rfl, fun xs ys => List.foldl_append .., fun p x c => ?_⟩,
    fun s rs => ⟨fun q => s.raiseAll_notices_get s rs rfl rfl q, by rw [State.raiseAll_eq]⟩⟩
  · intro u u'
    refine ⟨fun before n after hqueue hn hothers => ?_, fun hnew hroom => ?_, fun hnew hfull => ?_,
      fun q hq => s.notices_raise_other hq x c, rfl, fun cs => CauseSet.has_add cs c, CauseSet.has_empty⟩
    · exact (s.notices_raise_self p x c).trans (NoticeUnit.take_merge hqueue hn hothers c _)
    · exact (s.notices_raise_self p x c).trans (NoticeUnit.take_new hnew hroom)
    · have htaken : u' = { u with owed := oweCause x c u.owed } :=
        (s.notices_raise_self p x c).trans (NoticeUnit.take_owed hnew hfull)
      rw [htaken]
      exact ⟨rfl, rfl, exists_mem_oweCause u.owed⟩
  · refine ⟨fun i pt h => ?_, fun i h => ?_, fun n o h => ?_, fun n h => ?_⟩ <;> simp only [State.subjectState, h]
  · rw [State.notices_raise_self, State.setNotices_notices, PerPort.get_set, if_pos rfl,
      State.subjectState_congr (s := t) (t := t.setNotices p u) rfl rfl]
    rfl

/-! ### FETCH (R87 to R89) -/

section
variable {s : State} {p : Port} {count : Byte}

/-- A FETCH that is due and asks for no notice or for more than 4. -/
theorem exec_fetch_badArg (hdue : s.Due p (.fetch count)) (h : count = 0 ∨ 4 < count.toNat) :
    exec (.fetch p count) s = .next (s.answer p .badArg .empty).settle := by
  have hrefused : (count.toNat = 0 || 4 < count.toNat) = true := by
    rcases h with rfl | h
    · rfl
    · simp [h]
  show execFetch p count s = _
  rw [execFetch, onRequest_due hdue]
  simp only [hrefused, if_true]

/-- A FETCH that is due and asks for 1 to 4 notices: the head of the queue is removed, and the owed map drained. -/
theorem exec_fetch_passed (hdue : s.Due p (.fetch count)) (hlow : 1 ≤ count.toNat) (hhigh : count.toNat ≤ 4) :
    exec (.fetch p count) s =
      .next (((s.setNotices p (s.drained { s.notices.get p with queue := (s.notices.get p).queue.drop count.toNat })).answer p
        .ok (.notices ((s.notices.get p).queue.take count.toNat))).settle) := by
  have haccepted : (count.toNat = 0 || 4 < count.toNat) = false := by
    simp only [Bool.or_eq_false_iff, decide_eq_false_iff_not]
    omega
  show execFetch p count s = _
  rw [execFetch, onRequest_due hdue]
  simp only [haccepted, Bool.false_eq_true, if_false]

end

/-- Settles O36: a FETCH is refused, or removes the head of its port's queue and drains its owed map, and nothing else. -/
theorem fetchRemovesAndDrains : Obligations.FetchRemovesAndDrains := by
  intro s p count hdue
  refine ⟨fun hbad => onlyReplies_of (exec_fetch_badArg hdue hbad), fun hlow hhigh =>
    ⟨_, exec_fetch_passed hdue hlow hhigh, replied_answer rfl p _ _, ?_, fun q hq => ?_, rfl⟩⟩
  · rw [State.settle_notices, State.answer_notices, State.setNotices_notices, PerPort.get_set, if_pos rfl]
    rfl
  · rw [State.settle_notices, State.answer_notices, State.setNotices_notices, PerPort.get_set, if_neg hq]

end Sys2Proof.Machine

namespace Sys2Proof.Machine

/-! ### The ageing event (R77, R96, R97, R105) -/

/-- A point ages at a tick while it has a max age and is GOOD or SUSPECT (R96). -/
theorem Point.ages_iff (pt : Point) : pt.ages = true ↔ pt.defn.maxAge ≠ 0 ∧ (pt.quality = .good ∨ pt.quality = .suspect) := by
  simp [Point.ages]

/-- A point becomes STALE at the tick at which its age reaches its max age (R97). -/
theorem Point.goesStale_iff (pt : Point) : pt.goesStale = true ↔
    pt.defn.maxAge ≠ 0 ∧ (pt.quality = .good ∨ pt.quality = .suspect) ∧ pt.age + 1 = pt.defn.maxAge := by
  rw [Point.goesStale, Bool.and_eq_true, Point.ages_iff, decide_eq_true_eq, and_assoc]

/-- A point after a tick, with its conditions written out (R96, R97). -/
theorem Point.aged_cases (pt : Point) :
    pt.aged =
      if pt.defn.maxAge ≠ 0 ∧ (pt.quality = .good ∨ pt.quality = .suspect) then
        { pt with age := pt.age + 1, quality := if pt.age + 1 = pt.defn.maxAge then .stale else pt.quality }
      else pt := by
  unfold Point.aged
  by_cases hages : pt.ages = true
  · rw [if_pos hages, if_pos ((Point.ages_iff pt).1 hages), Point.goesStale, hages, Bool.true_and]
    simp only [decide_eq_true_eq]
  · rw [if_neg hages, if_neg fun h => hages ((Point.ages_iff pt).2 h)]

/-- A point that becomes STALE at a tick is STALE after it. -/
theorem Point.quality_aged {pt : Point} (h : pt.goesStale = true) : pt.aged.quality = .stale := by
  obtain ⟨hmax, hquality, hage⟩ := (Point.goesStale_iff pt).1 h
  rw [Point.aged_cases, if_pos ⟨hmax, hquality⟩]
  exact if_pos hage

/-- A slot's point becomes STALE at a tick when the slot is defined and its point does. -/
theorem State.goesStale_iff (s : State) (i : PointIx) : s.goesStale i = true ↔
    ∃ pt ∈ s.slot i, pt.defn.maxAge ≠ 0 ∧ (pt.quality = .good ∨ pt.quality = .suspect) ∧ pt.age + 1 = pt.defn.maxAge := by
  unfold State.goesStale
  simp only [Option.any_eq_true, Point.goesStale_iff, Option.mem_def]

/-- A line bound to a STALE point asks for its safe level (R104). -/
theorem State.lineLevel_stale {s : State} {o : Output} {i : PointIx} {pt : Point} (ho : o.point = some i)
    (hpt : s.slot i = some pt) (hstale : pt.quality = .stale) : s.lineLevel o = o.safe := by
  unfold State.lineLevel
  rw [ho, Option.bind_some, hpt]
  simp [hstale]

/-- The lines after the ageing event: those bound to a point that becomes STALE go to their safe levels (R105). -/
theorem State.outputs_ageTable (s : State) (n : Fin 8) :
    s.ageTable.outputs[n.val] =
      if s.outputs[n.val].point.any s.goesStale then { s.outputs[n.val] with level := s.outputs[n.val].safe }
      else s.outputs[n.val] := by
  have houtputs : s.ageTable.outputs = ((s.mapPoints Point.aged).driveLines s.goesStale).outputs := State.raiseAll_outputs ..
  simp only [houtputs, State.driveLines_outputs, mapTable_getElem, State.mapPoints_outputs]
  split
  · rename_i hany
    obtain ⟨i, hbound, hgoes⟩ := (Option.any_eq_true ..).1 hany
    obtain ⟨pt, hpt, hgoes⟩ := (Option.any_eq_true ..).1 hgoes
    have haged : (s.mapPoints Point.aged).slot i = some pt.aged := by
      rw [State.slot_mapPoints, hpt]
      rfl
    rw [State.lineLevel_stale hbound haged (Point.quality_aged hgoes)]
  · rfl

/-- The notice units after the ageing event: each takes QUALITY for its points that become STALE, in ascending order (R77, R81). -/
theorem State.notices_ageTable (s t : State) (hp : t.points = s.ageTable.points) (ho : t.orders = s.orders) (q : Port) :
    s.ageTable.notices.get q =
      (s.notices.get q).takeAll t
        (((List.finRange 512).filter fun i => s.goesStale i && (s.sub q i).isSome).map fun i => (.point i, .quality)) := by
  have hpoints : t.points = (s.mapPoints Point.aged).points := hp.trans (State.raiseAll_points ..)
  rw [← raisedFor_staleRaises, State.ageTable]
  dsimp only
  refine (State.raiseAll_notices_get _ t _ ?_ ?_ q).trans ?_
  · exact hpoints
  · exact ho
  · rfl

/-- The ageing event changes the points, the lines, the notice units and the tick due at the point table alone. -/
theorem State.ageTable_frame (s : State) :
    { s.ageTable with points := s.points, outputs := s.outputs, notices := s.notices, tickGen := s.tickGen } = s := by
  unfold State.ageTable
  dsimp only
  rw [State.raiseAll_eq]
  rfl

/-- The ageing event takes one tick from those due at the point table (R159, log 6). -/
theorem State.tickGen_ageTable (s : State) : s.ageTable.tickGen = { s.tickGen with dueTable := s.tickGen.dueTable - 1 } := by
  unfold State.ageTable
  exact State.raiseAll_tickGen ..

/-- Settles O50: both commands are the ageing event, which is read slot by slot, line by line and port by port. -/
theorem ageingAtATick : Obligations.AgeingAtATick := by
  intro s hheld hdue causes
  have hports : s.ageTable.ports = s.ports := State.raiseAll_ports ..
  have horders : s.ageTable.orders = s.orders := State.raiseAll_orders ..
  have hageing : exec .tickAgeing s = .next s.ageTable.settle := by
    show execTickAgeing s = _
    rw [execTickAgeing, hdue, event_due hheld]
  have hstale : ∀ i, s.goesStale i = true → exec (.pointStale i) s = .next s.ageTable.settle := fun i hi => by
    show execPointStale i s = _
    rw [execPointStale, hdue, hi, Bool.and_self, event_due hheld]
  refine ⟨_, hageing, fun q => ?_, hstale, fun i => ?_, s.goesStale_iff, fun n => ?_, fun q => ?_, fun q x c => ?_, ?_, ?_⟩
  · refine (State.ports_settle _ q).trans ?_
    rw [hports]
  · rw [State.slot_settle, State.slot_ageTable]
    exact congrArg (fun f => (s.slot i).map f) (funext Point.aged_cases)
  · simp only [State.settle_outputs]
    exact s.outputs_ageTable n
  · rw [State.settle_notices]
    exact s.notices_ageTable _ (State.settle_points _) ((State.settle_orders _).trans horders) q
  · simp only [causes, List.mem_map, List.mem_filter, List.mem_finRange, true_and, Bool.and_eq_true, Prod.mk.injEq]
    constructor
    · rintro ⟨i, ⟨hgoes, hsub⟩, rfl, rfl⟩
      exact ⟨i, rfl, rfl, hgoes, hsub⟩
    · rintro ⟨i, rfl, rfl, hgoes, hsub⟩
      exact ⟨i, ⟨hgoes, hsub⟩, rfl, rfl⟩
  · exact (State.settle_tickGen _).trans (State.tickGen_ageTable s)
  · exact congrArg (fun w : State => { w with ports := s.ports }) s.ageTable_frame

end Sys2Proof.Machine

/-! PROOFS. Freshness and output lines: the ages of points and the tick that makes one STALE; what a line reads of its point, and
OUTPUT_BIND; then the levels of the lines through every command. -/

namespace Sys2Proof.Machine

/-! ### Ages (R20, R26, R96, R97) -/

/-- The soundness of an age reads the definition, the quality and the age alone. -/
theorem Point.ageSound_of_eq {pt pt' : Point} (h : pt.ageSound) (hd : pt'.defn = pt.defn := by rfl)
    (hq : pt'.quality = pt.quality := by rfl) (ha : pt'.age = pt.age := by rfl) : pt'.ageSound := by
  unfold Point.ageSound
  rw [hd, hq, ha]
  exact h

/-- A point whose age is 0 and that is not STALE has a sound age. -/
theorem Point.ageSound_of_age_zero {pt : Point} (hage : pt.age = 0) (hquality : pt.quality ≠ .stale) : pt.ageSound := by
  refine ⟨hage ▸ Nat.zero_le _, iff_of_false hquality ?_, fun _ => hage⟩
  rintro ⟨hmax, hreached⟩
  exact hmax (hreached.symm.trans hage)

/-- A point that ages has not reached its max age (R96). -/
theorem Point.ageSound.age_lt {pt : Point} (h : pt.ageSound) (hages : pt.ages = true) : pt.age < pt.defn.maxAge := by
  obtain ⟨hle, hstale, -⟩ := h
  obtain ⟨hmax, hquality⟩ := (Point.ages_iff pt).1 hages
  refine Nat.lt_of_le_of_ne hle fun hreached => ?_
  have : pt.quality = .stale := hstale.2 ⟨hmax, hreached⟩
  rcases hquality with hq | hq <;> cases hq.symm.trans this

/-- A tick counts an age up to the max age, at which the point becomes STALE (R96, R97). -/
theorem Point.ageSound_aged {pt : Point} (h : pt.ageSound) : pt.aged.ageSound := by
  by_cases hages : pt.ages = true
  · have hlt := h.age_lt hages
    obtain ⟨hmax, hquality⟩ := (Point.ages_iff pt).1 hages
    rw [Point.aged_cases, if_pos ⟨hmax, hquality⟩]
    by_cases hreached : pt.age + 1 = pt.defn.maxAge
    · rw [if_pos hreached]
      exact ⟨Nat.le_of_eq hreached, iff_of_true rfl ⟨hmax, hreached⟩, nofun⟩
    · rw [if_neg hreached]
      refine ⟨hlt, iff_of_false ?_ fun hstale => hreached hstale.2, ?_⟩
      · rcases hquality with hq | hq <;> simp [hq]
      · rcases hquality with hq | hq <;> simp [hq]
  · rwa [Point.aged, if_neg hages]

/-- The operations on a point keep its age sound. -/
theorem ageSound_kept : KeptByPoint Point.ageSound where
  write _ _ _ hq _ := Point.ageSound_of_age_zero rfl (by rcases hq with rfl | rfl <;> exact nofun)
  define _ _ _ := Point.ageSound_of_age_zero rfl nofun
  reset _ _ := Point.ageSound_of_age_zero rfl nofun
  release pt h := by
    rw [Point.release_eq]
    exact Point.ageSound_of_eq h
  grant _ _ _ _ _ h := Point.ageSound_of_eq h
  wait _ _ _ _ _ _ _ _ h := Point.ageSound_of_eq h
  renew _ h := Point.ageSound_of_eq h
  withdraw _ _ h := Point.ageSound_of_eq h
  age _ h := Point.ageSound_aged h
  count pt h := by
    rw [Point.counted_eq]
    exact Point.ageSound_of_eq h
  grantInternal _ _ _ _ h := Point.ageSound_of_eq h

/-- Settles O7: a write and a definition start the age again, a tick stops it at the max age, and nothing else moves it. -/
theorem staleExactlyAtMaxAge : Obligations.StaleExactlyAtMaxAge := ageSound_kept.keptByTable.keptByStep

end Sys2Proof.Machine

namespace Sys2Proof.Machine

/-! ### The level of a line (R104) -/

/-- A line bound to a GOOD or SUSPECT point follows it, inverted if asked (R104). -/
theorem State.lineLevel_follows {s : State} {o : Output} {i : PointIx} {pt : Point} (ho : o.point = some i)
    (hpt : s.slot i = some pt) (hquality : pt.quality = .good ∨ pt.quality = .suspect) :
    s.lineLevel o = if (pt.value ≠ 0 ∧ o.invert = false) ∨ (pt.value = 0 ∧ o.invert = true) then .high else .low := by
  unfold State.lineLevel
  rw [ho, Option.bind_some, hpt]
  dsimp only
  rw [if_pos (by simpa using hquality)]
  by_cases hv : pt.value = 0 <;> cases o.invert <;> simp [hv]

/-- A line that is bound to no point asks for its safe level (R104). -/
theorem State.lineLevel_unbound (s : State) {o : Output} (ho : o.point = none) : s.lineLevel o = o.safe := by
  unfold State.lineLevel
  rw [ho]
  rfl

/-! ### OUTPUT_BIND (R103) -/

theorem lineIx?_eq_none (b : Byte) : lineIx? b = none ↔ 7 < b.toNat := by
  unfold lineIx?
  split <;> simp <;> omega

theorem level?_eq_some (b : Byte) (l : Level) : level? b = some l ↔ (b = 0 ∧ l = .low) ∨ (b = 1 ∧ l = .high) := by
  revert b
  cases l <;> decide +kernel

theorem level?_eq_none (b : Byte) : level? b = none ↔ 1 < b.toNat := by
  revert b
  decide +kernel

/-- A point selector is FFFFh for no point, or the index of a point (R103). -/
theorem bindPoint?_eq_some (h : Half) (x : Option PointIx) :
    bindPoint? h = some x ↔ if h = 0xFFFF then x = none else ∃ i, x = some i ∧ h.toNat = i.val := by
  unfold bindPoint?
  split
  · simp [eq_comm]
  · simp only [Option.map_eq_some_iff, pointIx?_eq_some]
    exact exists_congr fun i => by rw [and_comm, eq_comm]

theorem bindPoint?_eq_none (h : Half) : bindPoint? h = none ↔ 511 < h.toNat ∧ h ≠ 0xFFFF := by
  unfold bindPoint?
  split
  · simp [*]
  · rw [Option.map_eq_none_iff, pointIx?_eq_none]
    exact ⟨fun hbig => ⟨hbig, ‹_›⟩, And.left⟩

section
variable {s : State} {p : Port} {args : BindArgs}

/-- An OUTPUT_BIND that is due with arguments that fail a check of R103. -/
theorem exec_outputBind_badArg (hdue : s.Due p (.outputBind args))
    (h : lineIx? args.line = none ∨ bindPoint? args.point = none ∨ level? args.safe = none) :
    exec (.outputBind p args) s = .next (s.answer p .badArg .empty).settle := by
  show execOutputBind p args s = _
  rw [execOutputBind, onRequest_due hdue]
  split
  · rename_i hline hpoint hsafe
    rw [hline, hpoint, hsafe] at h
    simp at h
  · rfl

/-- An OUTPUT_BIND that is due with arguments that pass: the line gets its new binding and level, and the old binding is
reported. -/
theorem exec_outputBind_passed {n : Fin 8} {point : Option PointIx} {safe : Level} (hdue : s.Due p (.outputBind args))
    (hline : lineIx? args.line = some n) (hpoint : bindPoint? args.point = some point) (hsafe : level? args.safe = some safe) :
    exec (.outputBind p args) s =
      .next (((s.setOutput n (s.bound s.outputs[n.val] point safe args.invert)).answer p .ok
        (.output s.outputs[n.val].point s.outputs[n.val].safe s.outputs[n.val].invert
          (s.bound s.outputs[n.val] point safe args.invert).level)).settle) := by
  show execOutputBind p args s = _
  rw [execOutputBind, onRequest_due hdue, hline, hpoint, hsafe]

end

/-- A line with a new binding has the level that it asks for. -/
theorem State.level_bound (s : State) (o : Output) (point : Option PointIx) (safe : Level) (invert : Bool) :
    (s.bound o point safe invert).level = s.lineLevel (s.bound o point safe invert) := rfl

/-- One line replaced: that line reads back as given, and the others stay. -/
theorem State.outputs_setOutput (s : State) (n m : Fin 8) (o : Output) :
    (s.setOutput n o).outputs[m.val] = if m = n then o else s.outputs[m.val] := by
  have hset : (s.setOutput n o).outputs = s.outputs.set n.val o := rfl
  simp only [hset, Vector.getElem_set, Fin.ext_iff, eq_comm (a := m.val)]

/-- Settles O37: the four cases of a line's level, and an OUTPUT_BIND that is refused, or replaces one line and nothing else. -/
theorem outputLinesAreBoundAndDriven : Obligations.OutputLinesAreBoundAndDriven := by
  refine ⟨fun s o => ⟨fun i pt ho hpt hq => State.lineLevel_follows ho hpt hq, s.lineLevel_unbound, fun i ho hpt =>
      State.lineLevel_safe ho (by simp [hpt]), fun i pt ho hpt hq => ?_⟩, rfl,
    fun s p args hdue => ⟨fun hbad => onlyReplies_of (exec_outputBind_badArg hdue ?_), fun n point safe hline hpoint hsafe => ?_⟩⟩
  · rcases hq with hunset | hstale
    · exact State.lineLevel_safe ho (by simp [hpt, hunset])
    · exact State.lineLevel_stale ho hpt hstale
  · rwa [lineIx?_eq_none, bindPoint?_eq_none, level?_eq_none]
  · have hexec := exec_outputBind_passed hdue ((lineIx?_eq_some _ n).2 hline) ((bindPoint?_eq_some _ _).2 hpoint)
      ((level?_eq_some _ _).2 hsafe)
    have hbound : (s.setOutput n (s.bound s.outputs[n.val] point safe args.invert)).outputs[n.val] =
        s.bound s.outputs[n.val] point safe args.invert := (s.outputs_setOutput n n _).trans (if_pos rfl)
    refine ⟨_, hexec, ?_, ?_, fun m hm => (State.outputs_setOutput ..).trans (if_neg hm), rfl⟩
    · simp only [State.settle_outputs, State.answer_outputs, hbound]
      rfl
    · simp only [State.settle_outputs, State.answer_outputs, hbound]
      exact replied_answer rfl p _ _

end Sys2Proof.Machine

namespace Sys2Proof.Machine

/-! ### What a line reads of a point (R104) -/

/-- What an output line reads of its point (R104). -/
def Point.shown (pt : Point) : Word × Quality := (pt.value, pt.quality)

/-- What an output line reads of each slot (R104). -/
def State.shown (s : State) (i : PointIx) : Option (Word × Quality) := (s.slot i).map Point.shown

/-- The level a line asks for is read from what its point shows, its safe level and its inversion. -/
theorem State.lineLevel_of_shown {s t : State} {o : Output} (h : ∀ i, o.point = some i → t.shown i = s.shown i) :
    t.lineLevel o = s.lineLevel o := by
  cases ho : o.point with
  | none => rw [t.lineLevel_unbound ho, s.lineLevel_unbound ho]
  | some i =>
    have hshown : (t.slot i).map Point.shown = (s.slot i).map Point.shown := h i ho
    unfold State.lineLevel
    rw [ho, Option.bind_some, Option.bind_some]
    cases hs : s.slot i with
    | none =>
      rw [hs] at hshown
      rw [Option.map_eq_none_iff.1 hshown]
    | some pt =>
      rw [hs] at hshown
      obtain ⟨pt', ht, heq⟩ := Option.map_eq_some_iff.1 hshown
      obtain ⟨hvalue, hquality⟩ := Prod.mk.inj heq
      rw [ht]
      simp only [hvalue, hquality]

/-- Slots that stay, or change by an operation that lines do not see, show what they did. -/
theorem State.shown_of_slot {s t : State} (f : Point → Point) (hf : ∀ pt, (f pt).shown = pt.shown)
    (ht : ∀ i, t.slot i = (s.slot i).map f ∨ t.slot i = s.slot i) : t.shown = s.shown := by
  funext i
  unfold State.shown
  rcases ht i with h | h
  · rw [h, Option.map_map]
    exact congrArg (fun g => (s.slot i).map g) (funext hf)
  · rw [h]

/-- One slot changed by an operation that lines do not see. -/
theorem State.shown_of_one {s t : State} {i : PointIx} {f : Point → Point}
    (ht : ∀ j, t.slot j = if j = i then (s.slot i).map f else s.slot j) (hf : ∀ pt, (f pt).shown = pt.shown) :
    t.shown = s.shown := by
  refine State.shown_of_slot f hf fun j => ?_
  rw [ht]
  split
  · subst_vars
    exact .inl rfl
  · exact .inr rfl

/-- The slots of a list changed by an operation that lines do not see. -/
theorem State.shown_of_list {s t : State} {l : List PointIx} {f : Point → Point}
    (ht : ∀ j, t.slot j = if j ∈ l then (s.slot j).map f else s.slot j) (hf : ∀ pt, (f pt).shown = pt.shown) :
    t.shown = s.shown :=
  State.shown_of_slot f hf fun j => by
    rw [ht]
    split
    · exact .inl rfl
    · exact .inr rfl

/-- Points that stay show what they did. -/
theorem State.shown_congr {s t : State} (h : t.points = s.points) : t.shown = s.shown :=
  State.shown_of_slot id (fun _ => rfl) fun i => .inr (State.slot_congr h i)

@[simp] theorem State.shown_settle (s : State) : s.settle.shown = s.shown := State.shown_congr rfl

@[simp] theorem State.shown_answer (s : State) (p : Port) (st : Status) (b : Body) : (s.answer p st b).shown = s.shown :=
  State.shown_congr rfl

@[simp] theorem State.shown_raiseAll (s : State) (rs : List Raise) : (s.raiseAll rs).shown = s.shown :=
  State.shown_congr (State.raiseAll_points s rs)

@[simp] theorem State.shown_setCount (s : State) (p : Port) (n : Nat) : (s.setCount p n).shown = s.shown := State.shown_congr rfl

@[simp] theorem State.shown_setOrder (s : State) (n : OrderIx) (o : Option Order) : (s.setOrder n o).shown = s.shown :=
  State.shown_congr rfl

/-- A change of every slot that lines do not see. -/
theorem State.shown_mapPoints {s : State} {f : Point → Point} (hf : ∀ pt, (f pt).shown = pt.shown) :
    (s.mapPoints f).shown = s.shown :=
  State.shown_of_slot f hf fun i => .inl (State.slot_mapPoints s f i)

/-- A change of one slot that lines do not see. -/
theorem State.shown_modifySlot {s : State} {i : PointIx} {f : Point → Point} (hf : ∀ pt, (f pt).shown = pt.shown) :
    (s.modifySlot i f).shown = s.shown :=
  State.shown_of_one (State.slot_modifySlot s i · f) hf

/-! ### Claims are not shown (chapter 2) -/

theorem Point.shown_release (pt : Point) : pt.release.shown = pt.shown := by
  rw [Point.release_eq]
  rfl

theorem Point.shown_releaseFrom (pt : Point) (w : Party) : (pt.releaseFrom w).shown = pt.shown := by
  unfold Point.releaseFrom
  split
  · exact pt.shown_release
  · rfl

theorem Point.shown_renewFor (pt : Point) (p : Port) : (pt.renewFor p).shown = pt.shown := by
  unfold Point.renewFor
  split <;> rfl

theorem Point.shown_counted (pt : Point) : pt.counted.shown = pt.shown := by
  rw [Point.counted_eq]
  rfl

@[simp] theorem State.shown_releaseHeld (s : State) (w : Party) : (s.releaseHeld w).shown = s.shown :=
  State.shown_mapPoints fun pt => pt.shown_releaseFrom w

@[simp] theorem State.shown_grantInternal (s : State) (h : Holder) (l : List PointIx) : (s.grantInternal h l).shown = s.shown :=
  State.shown_of_list (State.slot_grantInternal s h l) fun _ => rfl

@[simp] theorem State.shown_releasePoint (s : State) (p : Port) (i : PointIx) : (s.releasePoint p i).shown = s.shown :=
  State.shown_of_one (s.slot_releasePoint p i) Point.shown_release

@[simp] theorem State.shown_releaseAll (s : State) (p : Port) : (s.releaseAll p).shown = s.shown := by
  unfold State.releaseAll
  simp

@[simp] theorem State.shown_disarmOrder (s : State) (n : OrderIx) : (s.disarmOrder n).shown = s.shown := by
  unfold State.disarmOrder
  simp only [State.shown_raiseAll, State.shown_releaseHeld]
  exact State.shown_congr rfl

@[simp] theorem State.shown_disarmScanner (s : State) (sc : Scanner) : (s.disarmScanner sc).shown = s.shown := by
  unfold State.disarmScanner
  simp only [State.shown_raiseAll, State.shown_releaseHeld]
  exact State.shown_congr rfl

@[simp] theorem State.shown_arbiterTick (s : State) : s.arbiterTick.shown = s.shown :=
  State.shown_of_slot _ Point.shown_counted fun i => .inl (State.slot_arbiterTick s i)

@[simp] theorem State.shown_portReset (s : State) (p : Port) (w : List Entry) : (s.portReset p w).shown = s.shown :=
  State.shown_of_slot (fun pt => pt.afterPortReset p) (fun _ => Point.shown_releaseFrom _ (.port p)) fun i =>
    .inl (State.slot_portReset s p w i)

/-- A CLAIM past its argument check grants points or places a wait at most. -/
theorem State.shown_takeClaim (s : State) (p : Port) (args : ClaimArgs) (mode : ClaimMode) (ixs : List PointIx) :
    (s.takeClaim p args mode ixs).1.shown = s.shown := by
  obtain h | ⟨i, pt, holder, w, -, -, -, -, -, -, -, -, -, h⟩ | ⟨-, -, h⟩ := s.takeClaim_cases p args mode ixs
  · rw [h]
  · rw [h, State.shown_setCount]
    exact State.shown_modifySlot fun _ => rfl
  · rw [h]
    exact State.shown_of_list (State.slot_grantClaim s _ ixs) fun _ => rfl

/-- The entries of a list show what they did when the effect of each is not seen. -/
theorem State.shown_takeList {f : State → PointIx → State} (hf : ∀ s i, (f s i).shown = s.shown) (s : State) (p : Port)
    (ixs : List PointIx) : (State.takeList f p s ixs).1.shown = s.shown :=
  KeptByTable.takeList (Inv := fun w => w.shown = s.shown) (fun w i _ hw => (hf w i).trans hw) ixs rfl

/-- An event whose effect is not seen. -/
theorem shown_of_event {due : Bool} {s t : State} {f : State → State} (h : event due s f = .next t)
    (hf : (f s).shown = s.shown) : t.shown = s.shown :=
  event_keeps (P := fun w => w.shown = s.shown) rfl (fun _ _ => (State.shown_settle _).trans hf) h

/-- A request whose effect is not seen. -/
theorem shown_of_request {p : Port} {r : Request} {s t : State} {f : State → State} (h : onRequest p r s f = .next t)
    (hf : (f s).shown = s.shown) : t.shown = s.shown :=
  shown_of_event h hf

/-- The commands that can change what a point shows: those that write, define, age or reset points. -/
def changesShown : Instr → Bool
  | .coldReset | .write .. | .define .. | .undefine .. | .tableReset .. | .tickAgeing | .pointStale .. | .batchCommit ..
  | .orderCopy | .conversionCompletion .. => true
  | _ => false

/-- A command that is not one of them leaves what every point shows as it is. -/
theorem exec_leaves_shown {c : Instr} {s t : State} (hc : changesShown c = false) (h : exec c s = .next t) :
    t.shown = s.shown := by
  cases c with
  | coldReset | write | define | undefine | tableReset | tickAgeing | pointStale | batchCommit | orderCopy
  | conversionCompletion => cases hc
  | claim p args =>
    unfold exec execClaim at h
    refine shown_of_request h ?_
    split
    · split
      · exact State.shown_answer ..
      · exact (State.shown_answer ..).trans (State.shown_takeClaim ..)
    · exact State.shown_answer ..
  | release p args =>
    unfold exec execRelease at h
    refine shown_of_request h ?_
    split
    · exact State.shown_answer ..
    · exact (State.shown_answer ..).trans (State.shown_takeList (fun w i => w.shown_releasePoint p i) ..)
    · exact (State.shown_answer ..).trans (State.shown_releaseAll ..)
  | renew p args =>
    unfold exec execRenew at h
    have hrenew := fun pt : Point => pt.shown_renewFor p
    refine shown_of_request h ?_
    split
    · exact State.shown_answer ..
    · exact (State.shown_answer ..).trans (State.shown_takeList (fun _ _ => State.shown_modifySlot hrenew) ..)
    · exact (State.shown_answer ..).trans (State.shown_mapPoints hrenew)
  | withdraw p point =>
    unfold exec execWithdraw at h
    refine shown_of_request h ?_
    split
    · exact State.shown_answer ..
    · split
      · rw [State.shown_answer, State.countDown, State.shown_setCount]
        exact State.shown_modifySlot fun _ => rfl
      · exact State.shown_answer ..
  | claimArbiterTick => exact shown_of_event h s.shown_arbiterTick
  | leaseLapse i => exact shown_of_event h s.shown_arbiterTick
  | waitExpiry i p => exact shown_of_event h s.shown_arbiterTick
  | orderArm p order =>
    unfold exec execOrderArm at h
    refine shown_of_request h ?_
    split
    · exact State.shown_answer ..
    · split
      · exact State.shown_answer ..
      · split
        · exact State.shown_answer ..
        · split
          · exact State.shown_answer ..
          · split
            · exact State.shown_answer ..
            · rw [State.shown_answer, State.shown_setOrder, State.shown_grantInternal]
  | orderDisarm p order =>
    unfold exec execOrderDisarm at h
    refine shown_of_request h ?_
    split
    · exact State.shown_answer ..
    · split
      · exact State.shown_answer ..
      · split
        · rw [State.shown_answer, State.shown_disarmOrder]
        · exact State.shown_answer ..
        · rw [State.shown_answer, State.shown_setOrder]
  | scanArm p =>
    unfold exec execScanArm at h
    refine shown_of_request h ?_
    split
    · exact State.shown_answer ..
    · split
      · exact State.shown_answer ..
      · dsimp only
        split
        · exact State.shown_answer ..
        · exact (State.shown_congr rfl).trans (s.shown_grantInternal .scanner _)
  | scanDisarm p =>
    unfold exec execScanDisarm at h
    refine shown_of_request h ?_
    split
    · exact State.shown_answer ..
    · split
      · rw [State.shown_answer, State.shown_disarmScanner]
      · exact State.shown_answer ..
  | portReset p =>
    unfold exec execPortReset at h
    have hreset : (s.resetOwnPort p).shown = s.shown := s.shown_portReset p _
    exact shown_of_request h hreset
  | forcePortReset p target =>
    unfold exec execForcePortReset at h
    refine shown_of_request h ?_
    split
    · exact State.shown_answer ..
    · split
      · exact s.shown_portReset p _
      · rw [State.shown_answer, State.shown_portReset]
  | _ => exact State.shown_congr (exec_leaves_table rfl h).1

end Sys2Proof.Machine

namespace Sys2Proof.Machine

/-! ### The lines after every event (R104, R105) -/

section
variable {s t : State}

/-- Lines that stay, of points that show what they did, keep their levels. -/
theorem State.OutputsSound.same (hs : s.OutputsSound) (ho : t.outputs = s.outputs) (hp : t.shown = s.shown) :
    t.OutputsSound := by
  intro n
  simp only [ho]
  exact (hs n).trans (State.lineLevel_of_shown fun i _ => congrFun hp i).symm

/-- Lines evaluated again wherever a point shows something else keep to their points (R105). -/
theorem State.OutputsSound.driven {w : State} {hit : PointIx → Bool} (hs : s.OutputsSound) (hw : w.outputs = s.outputs)
    (hp : ∀ i, hit i = false → w.shown i = s.shown i) (ho : t.outputs = (w.driveLines hit).outputs) (ht : t.shown = w.shown) :
    t.OutputsSound := by
  intro n
  have hlevel : ∀ o, t.lineLevel o = w.lineLevel o := fun o => State.lineLevel_of_shown fun i _ => congrFun ht i
  simp only [ho, hlevel, State.driveLines_outputs, mapTable_getElem, hw]
  split
  · rfl
  · rename_i hmiss
    refine (hs n).trans (State.lineLevel_of_shown fun i hi => hp i ?_).symm
    simpa [hi] using hmiss

/-- A slot that is replaced, with its lines evaluated again. -/
theorem State.OutputsSound.drivenSlot {w : State} {i : PointIx} {x : Option Point} (hs : s.OutputsSound)
    (hw : w.outputs = s.outputs) (hslot : ∀ j, w.slot j = if j = i then x else s.slot j)
    (ho : t.outputs = (w.driveLines fun j => j = i).outputs) (ht : t.shown = w.shown) : t.OutputsSound := by
  refine hs.driven hw (fun j hj => ?_) ho ht
  unfold State.shown
  rw [hslot, if_neg (by simpa using hj)]

/-- An accepted write evaluates the lines of its point again (R21). -/
theorem State.OutputsSound.store (hs : s.OutputsSound) (i : PointIx) (pt : Point) (v : Word) (q : Quality) :
    (s.store i pt v q).OutputsSound := by
  rw [State.store_eq]
  exact hs.drivenSlot (w := s.setSlot i (some (pt.written v q))) rfl (State.slot_setSlot s i · _) rfl (State.shown_congr rfl)

/-- Definition, redefinition and removal evaluate the lines of the slot again (R105). -/
theorem State.OutputsSound.replaceSlot (hs : s.OutputsSound) (i : PointIx) (x : Option Point) :
    (s.replaceSlot i x).OutputsSound := by
  rw [State.replaceSlot_eq]
  exact hs.drivenSlot (w := (s.dropSubs i).setSlot i x) rfl (State.slot_setSlot (s.dropSubs i) i · x) rfl (State.shown_congr rfl)

/-- A point that does not become STALE at a tick shows what it did. -/
theorem Point.shown_aged {pt : Point} (h : pt.goesStale = false) : pt.aged.shown = pt.shown := by
  unfold Point.aged
  split
  · simp [Point.shown, h]
  · rfl

/-- The ageing event evaluates the lines of the points that become STALE again (R97, R105). -/
theorem State.OutputsSound.ageTable (hs : s.OutputsSound) : s.ageTable.OutputsSound := by
  refine hs.driven (w := s.mapPoints Point.aged) (hit := s.goesStale) rfl (fun i hi => ?_) (State.raiseAll_outputs ..)
    ((State.shown_raiseAll ..).trans (State.shown_congr rfl))
  unfold State.shown
  rw [State.slot_mapPoints]
  cases hpt : s.slot i with
  | none => rfl
  | some pt =>
    have hstays : pt.goesStale = false := by simpa [State.goesStale, hpt] using hi
    exact congrArg some (Point.shown_aged hstays)

/-- A table reset evaluates the lines of every defined point again (R26, R105). -/
theorem State.OutputsSound.tableReset (hs : s.OutputsSound) : s.tableReset.OutputsSound := by
  refine hs.driven (w := { s.tableReset with outputs := s.outputs }) (hit := fun i => (s.tableReset.slot i).isSome) rfl
    (fun i hi => ?_) rfl (State.shown_congr rfl)
  have hreset : s.tableReset.slot i = none := by simpa using hi
  have hundefined : s.slot i = none := by simpa [State.slot_tableReset] using hreset
  show (s.tableReset.slot i).map Point.shown = (s.slot i).map Point.shown
  rw [hreset, hundefined]

/-- A line bound anew has the level that it asks for (R103). -/
theorem State.OutputsSound.setOutput (hs : s.OutputsSound) (n : Fin 8) {o : Output} (ho : o.level = s.lineLevel o) :
    (s.setOutput n o).OutputsSound := by
  intro m
  have hlevel : ∀ x, (s.setOutput n o).lineLevel x = s.lineLevel x := State.lineLevel_congr rfl
  rw [hlevel, State.outputs_setOutput]
  split
  · exact ho
  · exact hs m

/-- The end of an event leaves points and lines alone. -/
theorem State.OutputsSound.settled (hs : s.OutputsSound) : s.settle.OutputsSound := hs.same rfl s.shown_settle

/-- An answer and the end of its event leave points and lines alone. -/
theorem State.OutputsSound.replied {p : Port} {st : Status} {b : Body} (hs : s.OutputsSound) :
    (s.answer p st b).settle.OutputsSound := State.OutputsSound.settled (hs.same rfl (s.shown_answer p st b))

/-- Causes raised leave points and lines alone. -/
theorem State.OutputsSound.raiseAll (hs : s.OutputsSound) (rs : List Raise) : (s.raiseAll rs).OutputsSound :=
  hs.same (State.raiseAll_outputs s rs) (s.shown_raiseAll rs)

end

/-- The parts of a write keep the lines at their levels. -/
theorem outputsSound_writes : KeptByWrites State.OutputsSound where
  store _ i pt _ q _ _ hs := hs.store i pt _ q
  raise _ rs hs := hs.raiseAll rs
  release s p i _ _ _ hs := hs.same (s.releasePoint_outputs p i) (s.shown_releasePoint p i)
  batch _ _ _ hs := hs.same rfl (State.shown_congr rfl)

section
variable {s : State}

/-- The executor's choice leaves points and lines alone. -/
theorem State.OutputsSound.freeExecutor (hs : s.OutputsSound) : s.freeExecutor.OutputsSound :=
  hs.same (State.startRun_outputs _) (State.shown_congr (State.startRun_points _))

/-- The end of a run releases points at most, which lines do not see. -/
theorem State.OutputsSound.endRun (hs : s.OutputsSound) (n : OrderIx) (o : Order) : (s.endRun n o).OutputsSound := by
  have pulse : ∀ w : State, w.OutputsSound → (w.pulse o.defn.chain).OutputsSound := fun w hw => by
    unfold State.pulse
    split
    · exact hw
    · exact hw.same (State.deliver_outputs ..) (State.shown_congr (State.deliver_points ..))
  unfold State.endRun
  refine (pulse _ ?_).freeExecutor
  split
  · exact hs.same rfl ((State.shown_releaseHeld ..).trans (s.shown_setOrder n _))
  · exact hs.same rfl (s.shown_setOrder n _)

/-- A copy event writes at most, beside what lines do not see. -/
theorem State.OutputsSound.takeCopy (hs : s.OutputsSound) (r : Run) (o : Order) : (s.takeCopy r o).OutputsSound := by
  have reported : ((s.applyCopy (s.copyOutcome r.order o r.position)).modifyOrder r.order fun o' =>
      o'.report (s.copyOutcome r.order o r.position)).OutputsSound :=
    (outputsSound_writes.applyCopy r.order o r.position hs).same rfl (State.shown_congr rfl)
  unfold State.takeCopy
  dsimp only
  split
  · exact reported.freeExecutor
  · split
    · exact reported.freeExecutor.raiseAll _
    · split
      · refine State.OutputsSound.raiseAll ?_ _
        exact reported.same rfl (State.shown_congr rfl)
      · exact (reported.endRun _ _).raiseAll _

/-- What follows a completion leaves points and lines alone. -/
theorem State.OutputsSound.nextConversion (hs : s.OutputsSound) (a b : Nat) : (s.nextConversion a b).OutputsSound := by
  have houtputs := congrArg State.outputs (s.nextConversion_frame a b)
  have hpoints := congrArg State.points (s.nextConversion_frame a b)
  exact hs.same houtputs (State.shown_congr hpoints)

end

/-- Every command keeps the lines at their levels: it evaluates them again wherever it changes what their points show. -/
theorem outputsSound_exec (c : Instr) (s t : State) (hs : s.OutputsSound) (h : exec c s = .next t) : t.OutputsSound := by
  have houtputs := congrArg State.outputs (exec_putBack h)
  cases c with
  | coldReset =>
    cases h
    obtain ⟨-, -, -, -, -, -, -, hreset, -⟩ := resetStateIsSound
    exact State.OutputsSound.same hreset rfl (State.shown_congr rfl)
  | write p entries =>
    unfold exec execWrite at h
    refine onRequest_keeps hs (fun _ => ?_) h
    split
    · exact hs.replied
    · exact (outputsSound_writes.takeWrites p _ hs).replied
  | define p args =>
    unfold exec execDefine at h
    refine onRequest_keeps hs (fun _ => ?_) h
    split
    · split
      · exact hs.replied
      · exact (hs.replaceSlot _ _).replied
    · exact hs.replied
  | undefine p point =>
    unfold exec execUndefine at h
    refine onRequest_keeps hs (fun _ => ?_) h
    split
    · exact hs.replied
    · split
      · exact hs.replied
      · split
        · exact hs.replied
        · exact (hs.replaceSlot _ none).replied
  | tableReset p =>
    unfold exec execTableReset at h
    have answered : (s.answer p .ok .empty).OutputsSound := hs.same rfl (s.shown_answer ..)
    refine onRequest_keeps hs (fun _ => ?_) h
    exact answered.tableReset.settled
  | tickAgeing =>
    unfold exec execTickAgeing at h
    exact event_keeps hs (fun _ _ => hs.ageTable.settled) h
  | pointStale i =>
    unfold exec execPointStale at h
    exact event_keeps hs (fun _ _ => hs.ageTable.settled) h
  | batchCommit p release =>
    unfold exec execBatchCommit at h
    refine onRequest_keeps hs (fun _ => ?_) h
    split
    · exact hs.replied
    · split
      · exact hs.replied
      · exact (outputsSound_writes.commit p _ release ‹_› hs).replied
  | orderCopy =>
    unfold exec execOrderCopy at h
    refine event_keeps hs (fun _ _ => ?_) h
    split
    · exact hs.settled
    · split
      · exact hs.freeExecutor.settled
      · exact (hs.takeCopy _ _).settled
  | conversionCompletion raw =>
    unfold exec execConversionCompletion at h
    refine event_keeps hs (fun _ _ => ?_) h
    split
    · exact hs.settled
    · split
      · exact hs.settled
      · exact (((outputsSound_writes.scanWrite _ raw hs).nextConversion _ _).raiseAll _).settled
  | outputBind p args =>
    unfold exec execOutputBind at h
    refine onRequest_keeps hs (fun _ => ?_) h
    split
    · exact (hs.setOutput _ (State.level_bound ..)).replied
    · exact hs.replied
  | _ => exact hs.same houtputs (exec_leaves_shown rfl h)

/-- Settles O11: every command keeps the lines at their levels, and none reads the queue of commands. -/
theorem outputLinesFollowTheirPoints : Obligations.OutputLinesFollowTheirPoints :=
  keptByStep_of (fun _ _ hs => hs.same rfl (State.shown_congr rfl)) outputsSound_exec

end Sys2Proof.Machine

/-! PROOFS. Transfer orders: what an order and the scanner stand for through triggers, the executor's choice, and from these the
invariants of the order engine and of the claims of internal holders; then the requests and the copies of chapter 6. -/

namespace Sys2Proof.Machine

/-! ### ORDER_DEFINE's checks (R113) -/

theorem orderIx?_eq_some (b : Byte) (n : OrderIx) : orderIx? b = some n ↔ b.toNat = n.val := by
  unfold orderIx?
  split
  · simp [Fin.ext_iff]
  · constructor
    · exact fun e => nomatch e
    · have := n.isLt
      omega

theorem orderIx?_eq_none (b : Byte) : orderIx? b = none ↔ 31 < b.toNat := by
  unfold orderIx?
  split <;> simp <;> omega

theorem runsFit_iff (x : OrderArgs) : runsFit x = true ↔
    1 ≤ x.runLength.toNat ∧ x.runLength.toNat ≤ 16 ∧ x.source.toNat + x.runLength.toNat ≤ 512 ∧
      x.dest.toNat + x.runLength.toNat ≤ 512 := by
  simp [runsFit, and_assoc]

/-- The definition that an ORDER_DEFINE gives has each field as its reader gives it, and its runs fit (R113). -/
theorem orderDef?_eq_some (p : Port) (x : OrderArgs) (d : OrderDef) : orderDef? p x = some d ↔
    d.owner = p ∧ runsFit x = true ∧ trigger? x.trigger = some d.trigger ∧ pointIx? x.source = some d.source ∧
      pointIx? x.dest = some d.dest ∧ sourceStep? x = some d.step ∧ transform? x = some d.transform ∧
      chain? x.chain = some d.chain ∧ d.runLength = x.runLength.toNat ∧ d.runs = x.runs.toNat := by
  obtain ⟨owner, trigger, source, runLength, dest, move, transform, runs, chain⟩ := d
  unfold orderDef?
  constructor
  · intro h
    split at h
    · simp_all
    · cases h
  · rintro ⟨rfl, hfit, htrigger, hsource, hdest, hstep, htransform, hchain, rfl, rfl⟩
    simp only [hfit, htrigger, hsource, hdest, hstep, htransform, hchain]

/-- A definition that ORDER_DEFINE accepts is sound (Table 6.1-1). -/
theorem orderDef?_sound {p : Port} {x : OrderArgs} {d : OrderDef} (h : orderDef? p x = some d) : d.sound := by
  obtain ⟨-, hfit, -, hsource, hdest, -, -, -, hlength, hruns⟩ := (orderDef?_eq_some p x d).1 h
  obtain ⟨hpos, hmost, hin, hout⟩ := (runsFit_iff x).1 hfit
  rw [pointIx?_eq_some] at hsource hdest
  have hmax := x.runs.isLt
  exact ⟨by omega, by omega, by omega, by omega, by omega⟩

/-! ### An order takes a trigger (R120) -/

section
variable {o : Order}

theorem Order.ready_iff : o.ready = true ↔ o.phase = .armed ∧ 0 < o.pending := by simp [Order.ready]

theorem Order.hears_iff {t : Trigger} : o.hears t = true ↔ o.defn.trigger = t ∧ o.phase = .armed := by simp [Order.hears]

theorem Order.accept_room (h : o.pending < Config.pendingMax) : o.accept = { o with pending := o.pending + 1 } := if_pos h

theorem Order.accept_full (h : Config.pendingMax ≤ o.pending) : o.accept = { o with missed := countUp o.missed } :=
  if_neg (Nat.not_lt.2 h)

/-- A trigger taken changes the counts of triggers alone. -/
theorem Order.accept_eq (o : Order) : o.accept = { o with pending := o.accept.pending, missed := o.accept.missed } := by
  unfold Order.accept
  split <;> rfl

theorem countUp_le {n : Nat} (h : n ≤ Config.countMax) : countUp n ≤ Config.countMax := by
  unfold countUp
  split <;> omega

/-- An ARMED order that takes a trigger stays sound (R112, R120). -/
theorem Order.sound_accept (ho : o.sound) (harmed : o.phase = .armed) : o.accept.sound := by
  obtain ⟨hdef, hpending, hnot, hremaining, hmissed, hfaults⟩ := ho
  rcases Nat.lt_or_ge o.pending Config.pendingMax with hroom | hfull
  · rw [Order.accept_room hroom]
    exact ⟨hdef, hroom, fun h => absurd harmed h, hremaining, hmissed, hfaults⟩
  · rw [Order.accept_full hfull]
    exact ⟨hdef, hpending, hnot, hremaining, countUp_le hmissed, hfaults⟩

/-- An order that takes the triggers it hears (R167). -/
def Order.heard (o : Order) (t : Trigger) : Order := if o.hears t then o.accept else o

theorem Order.sound_heard (ho : o.sound) (t : Trigger) : (o.heard t).sound := by
  unfold Order.heard
  split
  · exact Order.sound_accept ho (Order.hears_iff.1 ‹_›).2
  · exact ho

end

/-! ### What an order stands for: its definition and its state (R111, R112) -/

/-- The definition and the state of an order, which triggers, copies and the executor's choice leave alone. -/
def Order.standing (o : Order) : OrderDef × OrderPhase := (o.defn, o.phase)

/-- What each order slot stands for; none for an EMPTY slot. -/
def State.standing (s : State) (n : OrderIx) : Option (OrderDef × OrderPhase) := (s.order n).map Order.standing

theorem Order.standing_accept (o : Order) : o.accept.standing = o.standing := by
  rw [Order.accept_eq]
  rfl

theorem Order.standing_heard (o : Order) (t : Trigger) : (o.heard t).standing = o.standing := by
  unfold Order.heard
  split
  · exact o.standing_accept
  · rfl

theorem Order.standing_report (o : Order) (x : CopyOutcome) : (o.report x).standing = o.standing := by
  unfold Order.report
  split <;> rfl

section
variable {s t : State}

/-- Orders that each change by an operation that keeps what they stand for. -/
theorem State.standing_of_map {f : OrderIx → Order → Order} (ht : ∀ n, t.order n = (s.order n).map (f n))
    (hf : ∀ n o, (f n o).standing = o.standing) : t.standing = s.standing := by
  funext n
  unfold State.standing
  rw [ht, Option.map_map]
  exact congrArg (fun g => (s.order n).map g) (funext (hf n))

theorem State.standing_congr (h : t.orders = s.orders) : t.standing = s.standing := by
  funext n
  simp only [State.standing, State.order_congr h]

theorem State.standing_modifyOrder {f : Order → Order} (hf : ∀ o, (f o).standing = o.standing) (s : State) (n : OrderIx) :
    (s.modifyOrder n f).standing = s.standing := by
  refine State.standing_of_map (f := fun m o => if m = n then f o else o) (fun m => ?_) fun m o => ?_
  · rw [State.order_modifyOrder]
    by_cases h : m = n
    · simp [h]
    · simp [h]
  · split
    · exact hf o
    · rfl

/-! ### The executor's choice (R123) -/

/-- The lowest-numbered ready order, slot by slot. -/
theorem State.lowestReady_eq (s : State) : s.lowestReady = (List.finRange 32).find? fun n => (s.order n).any Order.ready := by
  unfold State.lowestReady
  rw [entriesOf_eq, List.findSome?_map, ← List.findSome?_guard]
  rfl

theorem State.lowestReady_eq_none : s.lowestReady = none ↔ ∀ n, ∀ o ∈ s.order n, o.ready = false := by
  rw [State.lowestReady_eq, List.find?_eq_none]
  simp only [List.mem_finRange, forall_const, Bool.not_eq_true, Option.any_eq_false, Option.mem_def]

theorem State.lowestReady_eq_some {n : OrderIx} : s.lowestReady = some n ↔
    (∃ o ∈ s.order n, o.ready = true) ∧ ∀ m, m < n → ∀ o ∈ s.order m, o.ready = false := by
  rw [State.lowestReady_eq, List.find?_eq_some_iff_getElem]
  simp only [List.getElem_finRange, List.length_finRange, Option.any_eq_true, Bool.not_eq_true', Option.any_eq_false]
  refine and_congr (by simp) ⟨?_, fun h => ?_⟩
  · rintro ⟨i, hi, rfl, h⟩ m hm o ho
    simpa using h m.val hm o ho
  · exact ⟨n.val, n.isLt, rfl, fun j hj o ho => by simpa using h ⟨j, by omega⟩ hj o ho⟩

/-- An order with one trigger less to serve, as its run starts (R123). -/
def Order.serve (o : Order) : Order := { o with pending := o.pending - 1 }

/-- An executor with a run in flight makes no choice. -/
theorem State.startRun_busy {r : Run} (h : s.executor = some r) : s.startRun = s := by simp [State.startRun, h]

/-- With no order ready, a free executor stays free. -/
theorem State.startRun_idle (h : ∀ n, ∀ o ∈ s.order n, o.ready = false) : s.startRun = s := by
  unfold State.startRun
  rw [State.lowestReady_eq_none.2 h]
  split <;> rfl

/-- A free executor starts a run of the order that it chooses, which has one trigger less to serve. -/
theorem State.startRun_chosen {n : OrderIx} (hfree : s.executor = none) (h : s.lowestReady = some n) :
    s.startRun = { s.modifyOrder n Order.serve with
      executor := some { order := n, position := 0, stopping := false } } := by
  simp only [State.startRun, hfree, h]
  rfl

/-- What the executor's choice can do: nothing, with a run in flight or no order ready, or start the lowest-numbered ready
order. -/
theorem State.startRun_cases (s : State) :
    (s.startRun = s ∧ (s.executor = none → ∀ n, ∀ o ∈ s.order n, o.ready = false)) ∨
    ∃ n o, s.executor = none ∧ s.order n = some o ∧ o.ready = true ∧
      s.startRun = { s.modifyOrder n Order.serve with
        executor := some { order := n, position := 0, stopping := false } } := by
  cases hex : s.executor with
  | some r => exact .inl ⟨State.startRun_busy hex, nofun⟩
  | none =>
    cases hlow : s.lowestReady with
    | none =>
      rw [State.lowestReady_eq_none] at hlow
      exact .inl ⟨State.startRun_idle hlow, fun _ => hlow⟩
    | some n =>
      obtain ⟨⟨o, ho, hready⟩, -⟩ := State.lowestReady_eq_some.1 hlow
      exact .inr ⟨n, o, rfl, ho, hready, State.startRun_chosen hex hlow⟩

@[simp] theorem State.standing_startRun (s : State) : s.startRun.standing = s.standing := by
  rcases s.startRun_cases with ⟨h, -⟩ | ⟨n, o, -, -, -, h⟩
  · rw [h]
  · rw [h]
    exact State.standing_modifyOrder (f := Order.serve) (fun _ => rfl) s n

/-! ### A trigger delivered to the orders (R167) -/

/-- The state in which the orders have taken a trigger and the executor has yet to choose (R167). -/
def State.heard (s : State) (t : Trigger) : State :=
  { s with orders := mapTable (fun o => o.map fun o => if o.hears t then o.accept else o) s.orders }

theorem State.deliverToOrders_heard (s : State) (t : Trigger) : s.deliverToOrders t = (s.heard t).startRun := rfl

theorem State.deliver_heard (s : State) (t : Trigger) : s.deliver t = ((s.deliverToScanner t).heard t).startRun := rfl

theorem State.order_heard (s : State) (t : Trigger) (n : OrderIx) :
    (s.heard t).order n = (s.order n).map fun o => o.heard t := mapTable_getElem ..

@[simp] theorem State.standing_heard (s : State) (t : Trigger) : (s.heard t).standing = s.standing :=
  State.standing_of_map (s.order_heard t) fun _ o => o.standing_heard t

@[simp] theorem State.standing_deliverToOrders (s : State) (t : Trigger) : (s.deliverToOrders t).standing = s.standing := by
  rw [State.deliverToOrders_heard, State.standing_startRun, State.standing_heard]

@[simp] theorem State.standing_deliver (s : State) (t : Trigger) : (s.deliver t).standing = s.standing := by
  rw [State.deliver_heard, State.standing_startRun, State.standing_heard]
  rfl

@[simp] theorem State.standing_store (s : State) (i : PointIx) (pt : Point) (v : Word) (q : Quality) :
    (s.store i pt v q).standing = s.standing := by
  rw [State.store_eq]
  exact (State.standing_congr rfl).trans (s.standing_deliver (.point i))

@[simp] theorem State.standing_applyCopy (s : State) (x : CopyOutcome) : (s.applyCopy x).standing = s.standing := by
  cases x with
  | refused => rfl
  | fault => rfl
  | written => exact State.standing_store ..

@[simp] theorem State.standing_freeExecutor (s : State) : s.freeExecutor.standing = s.standing := State.standing_startRun _

@[simp] theorem State.standing_fire (s : State) (n : OrderIx) : (s.fire n).standing = s.standing := by
  unfold State.fire
  rw [State.standing_startRun, State.standing_modifyOrder Order.standing_accept]

/-- The state of a copy event after the write and the report, before what becomes of the run (R128, R129). -/
def State.reported (s : State) (r : Run) (o : Order) : State :=
  (s.applyCopy (s.copyOutcome r.order o r.position)).modifyOrder r.order fun x => x.report (s.copyOutcome r.order o r.position)

@[simp] theorem State.standing_reported (s : State) (r : Run) (o : Order) : (s.reported r o).standing = s.standing := by
  unfold State.reported
  rw [State.standing_modifyOrder (fun x => x.standing_report _), State.standing_applyCopy]

end

end Sys2Proof.Machine

namespace Sys2Proof.Machine

/-! ### The steps of a copy event, by what becomes of its run (R128, R131, R135) -/

section
variable {s : State} {r : Run} {o₀ o : Order}

/-- The copy's report finds the order of the run, standing as it did. -/
theorem State.order_reported (h : s.order r.order = some o₀) :
    ∃ o, (s.reported r o₀).order r.order = some o ∧ o.standing = o₀.standing := by
  have hstanding := congrFun (s.standing_reported r o₀) r.order
  simpa only [State.standing, h, Option.map_some, Option.map_eq_some_iff] using hstanding

/-- The copy of a stopped run: the executor is free (R135). -/
theorem State.takeCopy_stopped (ho : (s.reported r o₀).order r.order = some o) (hstop : r.stopping = true) :
    s.takeCopy r o₀ = (s.reported r o₀).freeExecutor.raiseAll
      (s.copyRaises (s.copyOutcome r.order o₀ r.position) ++
        orderRaises o.defn.owner r.order (s.copyOutcome r.order o₀ r.position) false) := by
  unfold State.takeCopy
  unfold State.reported at ho ⊢
  simp only [ho, hstop, if_true]

/-- A copy before the last: the next copy is presented (R128). -/
theorem State.takeCopy_goesOn (ho : (s.reported r o₀).order r.order = some o) (hstop : r.stopping = false)
    (hmore : r.position + 1 < o.defn.runLength) :
    s.takeCopy r o₀ = State.raiseAll { s.reported r o₀ with executor := some { r with position := r.position + 1 } }
      (s.copyRaises (s.copyOutcome r.order o₀ r.position) ++
        orderRaises o.defn.owner r.order (s.copyOutcome r.order o₀ r.position) false) := by
  unfold State.takeCopy
  unfold State.reported at ho ⊢
  simp only [ho, hstop, hmore, if_true, Bool.false_eq_true, if_false]

/-- The last copy of a run: the run ends (R131). -/
theorem State.takeCopy_ends (ho : (s.reported r o₀).order r.order = some o) (hstop : r.stopping = false)
    (hlast : ¬ r.position + 1 < o.defn.runLength) :
    s.takeCopy r o₀ = ((s.reported r o₀).endRun r.order o).raiseAll
      ((if o.retires then (s.reported r o₀).releaseRaises (.order r.order) else []) ++
        s.copyRaises (s.copyOutcome r.order o₀ r.position) ++
        orderRaises o.defn.owner r.order (s.copyOutcome r.order o₀ r.position) o.retires) := by
  unfold State.takeCopy
  unfold State.reported at ho ⊢
  simp only [ho, hstop, hlast, Bool.false_eq_true, if_false]

end

/-! ### Orders within their bounds (R112, R120) -/

/-- Every order is sound. -/
def State.EveryOrderSound (s : State) : Prop := ∀ n, ∀ o ∈ s.order n, o.sound

/-- A run that starts serves one trigger (R123). -/
theorem Order.sound_serve {o : Order} (ho : o.sound) : o.serve.sound := by
  obtain ⟨hdef, hpending, hnot, hremaining, hmissed, hfaults⟩ := ho
  exact ⟨hdef, Nat.le_trans (Nat.sub_le ..) hpending, fun h => by simp [Order.serve, hnot h], hremaining, hmissed, hfaults⟩

/-- A fault is counted, and the count saturates (R111, R129). -/
theorem Order.sound_report {o : Order} (ho : o.sound) (x : CopyOutcome) : (o.report x).sound := by
  obtain ⟨hdef, hpending, hnot, hremaining, hmissed, hfaults⟩ := ho
  unfold Order.report
  split
  · exact ⟨hdef, hpending, hnot, hremaining, hmissed, countUp_le hfaults⟩
  · exact ⟨hdef, hpending, hnot, hremaining, hmissed, hfaults⟩

/-- A run that ends leaves fewer to come, or the same when the repeat count is 0 (R131). -/
theorem Order.sound_endRun {o : Order} (ho : o.sound) : o.endRun.sound := by
  obtain ⟨hdef, hpending, hnot, hremaining, hmissed, hfaults⟩ := ho
  refine ⟨hdef, hpending, hnot, ?_, hmissed, hfaults⟩
  unfold Order.endRun
  dsimp only
  split <;> omega

/-- An order that leaves ARMED without triggers is sound (R116, R133, R136). -/
theorem Order.sound_unarmed {o : Order} (ho : o.sound) (phase : OrderPhase) :
    Order.sound { o with phase := phase, pending := 0 } := by
  obtain ⟨hdef, -, -, hremaining, hmissed, hfaults⟩ := ho
  exact ⟨hdef, Nat.zero_le _, fun _ => rfl, hremaining, hmissed, hfaults⟩

/-- An order that becomes ARMED holds no trigger and has every run before it (R115). -/
theorem Order.sound_arm {o : Order} (ho : o.sound) : o.arm.sound := by
  obtain ⟨hdef, -, -, -, -, hfaults⟩ := ho
  exact ⟨hdef, Nat.zero_le _, fun _ => rfl, Nat.le_refl _, Nat.zero_le _, hfaults⟩

theorem OrderDef.sound_fresh {d : OrderDef} (hd : d.sound) : d.fresh.sound :=
  ⟨hd, Nat.zero_le _, fun _ => rfl, Nat.le_refl _, Nat.zero_le _, Nat.zero_le _⟩

/-- An order with no trigger to serve is not ready. -/
theorem Order.not_ready {o : Order} (h : o.pending = 0) : o.ready = false := by simp [Order.ready, h]

section
variable {s t : State}

theorem State.EveryOrderSound.ofMap {f : OrderIx → Order → Order} (hs : s.EveryOrderSound)
    (ht : ∀ n, t.order n = (s.order n).map (f n)) (hf : ∀ n, ∀ o ∈ s.order n, o.sound → (f n o).sound) :
    t.EveryOrderSound := by
  intro n o ho
  rw [ht, Option.mem_def, Option.map_eq_some_iff] at ho
  obtain ⟨o', ho', rfl⟩ := ho
  exact hf n o' ho' (hs n o' ho')

theorem State.EveryOrderSound.same (hs : s.EveryOrderSound) (h : t.orders = s.orders) : t.EveryOrderSound := by
  intro n o ho
  exact hs n o (by rwa [← State.order_congr h])

theorem State.EveryOrderSound.setOrder (hs : s.EveryOrderSound) (n : OrderIx) {x : Option Order} (hx : ∀ o ∈ x, o.sound) :
    (s.setOrder n x).EveryOrderSound := by
  intro m o ho
  rw [State.order_setOrder] at ho
  split at ho
  · exact hx o ho
  · exact hs m o ho

theorem State.EveryOrderSound.modifyOrder (hs : s.EveryOrderSound) (n : OrderIx) {f : Order → Order}
    (hf : ∀ o ∈ s.order n, o.sound → (f o).sound) : (s.modifyOrder n f).EveryOrderSound := by
  refine hs.setOrder n fun o ho => ?_
  obtain ⟨o', ho', rfl⟩ := Option.map_eq_some_iff.1 ho
  exact hf o' ho' (hs n o' ho')

/-- The orders that hear a trigger are ARMED (R167). -/
theorem State.EveryOrderSound.heard (hs : s.EveryOrderSound) (tr : Trigger) : (s.heard tr).EveryOrderSound :=
  hs.ofMap (s.order_heard tr) fun _ _ _ ho => Order.sound_heard ho tr

theorem State.EveryOrderSound.startRun (hs : s.EveryOrderSound) : s.startRun.EveryOrderSound := by
  rcases s.startRun_cases with ⟨h, -⟩ | ⟨n, o, -, -, -, h⟩
  · rwa [h]
  · rw [h]
    exact (hs.modifyOrder n (f := Order.serve) fun _ _ => Order.sound_serve).same rfl

theorem State.EveryOrderSound.deliver (hs : s.EveryOrderSound) (tr : Trigger) : (s.deliver tr).EveryOrderSound :=
  ((State.EveryOrderSound.same (t := s.deliverToScanner tr) hs rfl).heard tr).startRun

theorem State.EveryOrderSound.pulse (hs : s.EveryOrderSound) (k : Option (Fin 8)) : (s.pulse k).EveryOrderSound := by
  cases k with
  | none => exact hs
  | some k => exact hs.deliver _

/-! ### The executor (R119, R123) -/

/-- A run in flight belongs to an order that stands as the run says (R119). -/
def State.RunSound (s : State) : Prop := ∀ r ∈ s.executor, ∃ o ∈ s.order r.order, r.soundFor o

theorem State.executorSound_iff :
    s.ExecutorSound ↔ s.RunSound ∧ (s.executor = none → ∀ n, ∀ o ∈ s.order n, o.ready = false) := by
  unfold State.ExecutorSound State.RunSound
  cases s.executor <;> simp

theorem State.ordersSound_iff :
    s.OrdersSound ↔ s.EveryOrderSound ∧ s.RunSound ∧ (s.executor = none → ∀ n, ∀ o ∈ s.order n, o.ready = false) :=
  and_congr_right fun _ => State.executorSound_iff

/-- A run agrees with any order that stands as its own does. -/
theorem Run.soundFor_congr {r : Run} {o o' : Order} (h : o'.standing = o.standing) (hr : r.soundFor o) : r.soundFor o' := by
  obtain ⟨hdefn, hphase⟩ := Prod.mk.inj h
  unfold Run.soundFor
  rw [hdefn, hphase]
  exact hr

/-- The run in flight reads the executor and what the orders stand for alone. -/
theorem State.RunSound.same (hs : s.RunSound) (he : t.executor = s.executor) (ho : t.standing = s.standing) : t.RunSound := by
  intro r hr
  rw [he] at hr
  obtain ⟨o, hmem, hsound⟩ := hs r hr
  have hstanding := congrFun ho r.order
  rw [State.standing, State.standing, Option.mem_def.1 hmem, Option.map_some, Option.map_eq_some_iff] at hstanding
  obtain ⟨o', ho', heq⟩ := hstanding
  exact ⟨o', ho', Run.soundFor_congr heq hsound⟩

/-- After its choice the executor has a run in flight of an ARMED order, or no order is ready (R123). -/
theorem State.ordersSound_startRun (hs : s.EveryOrderSound) (hr : s.RunSound) : s.startRun.OrdersSound := by
  refine State.ordersSound_iff.2 ⟨hs.startRun, ?_⟩
  rcases s.startRun_cases with ⟨h, hidle⟩ | ⟨n, o, -, ho, hready, h⟩
  · rw [h]
    exact ⟨hr, hidle⟩
  · rw [h]
    refine ⟨?_, nofun⟩
    rintro r ⟨⟩
    have hlength : 1 ≤ o.defn.runLength := (hs n o ho).1.1
    refine ⟨o.serve, ?_, hlength, (Order.ready_iff.1 hready).1⟩
    exact (State.order_modifyOrder s n n Order.serve).trans (by rw [if_pos rfl, ho]; rfl)

/-- An executor made free chooses anew (R123, R131). -/
theorem State.ordersSound_freeExecutor (hs : s.EveryOrderSound) : s.freeExecutor.OrdersSound :=
  State.ordersSound_startRun (hs.same rfl) nofun

theorem State.OrdersSound.same (hs : s.OrdersSound) (ho : t.orders = s.orders) (he : t.executor = s.executor) :
    t.OrdersSound := by
  have horder : ∀ n, t.order n = s.order n := State.order_congr ho
  rw [State.ordersSound_iff] at hs ⊢
  obtain ⟨hevery, hrun, hidle⟩ := hs
  refine ⟨hevery.same ho, hrun.same he (State.standing_congr ho), fun hfree n o hmem => ?_⟩
  rw [he] at hfree
  rw [horder] at hmem
  exact hidle hfree n o hmem

theorem State.OrdersSound.settled (hs : s.OrdersSound) : s.settle.OrdersSound := hs.same rfl rfl

theorem State.OrdersSound.replied {p : Port} {st : Status} {b : Body} (hs : s.OrdersSound) :
    (s.answer p st b).settle.OrdersSound := hs.same rfl rfl

theorem State.OrdersSound.raiseAll (hs : s.OrdersSound) (rs : List Raise) : (s.raiseAll rs).OrdersSound :=
  hs.same (State.raiseAll_orders ..) (State.raiseAll_executor ..)

theorem State.OrdersSound.every (hs : s.OrdersSound) : s.EveryOrderSound := hs.1

theorem State.OrdersSound.run (hs : s.OrdersSound) : s.RunSound := (State.executorSound_iff.1 hs.2).1

theorem State.OrdersSound.idle (hs : s.OrdersSound) : s.executor = none → ∀ n, ∀ o ∈ s.order n, o.ready = false :=
  (State.executorSound_iff.1 hs.2).2

/-- Orders that take a trigger stay sound, and the executor then chooses (R167). -/
theorem State.OrdersSound.deliverToOrders (hs : s.OrdersSound) (tr : Trigger) : (s.deliverToOrders tr).OrdersSound :=
  State.ordersSound_startRun (hs.every.heard tr) (hs.run.same rfl (s.standing_heard tr))

theorem State.OrdersSound.deliver (hs : s.OrdersSound) (tr : Trigger) : (s.deliver tr).OrdersSound :=
  State.OrdersSound.deliverToOrders (s := s.deliverToScanner tr) (hs.same rfl rfl) tr

/-- The parts of a write keep the orders sound: only its trigger reaches them (R21). -/
theorem ordersSound_writes : KeptByWrites State.OrdersSound where
  store s i pt x q _ _ hs := by
    rw [State.store_eq]
    exact (hs.deliver (.point i)).same rfl rfl
  raise _ rs hs := hs.raiseAll rs
  release _ p i _ _ _ hs := hs.same (State.releasePoint_orders ..) (State.releasePoint_executor ..)
  batch _ _ _ hs := hs.same rfl rfl

/-! ### The orders after each command of the order engine (chapter 6) -/

/-- The order of a run in flight is ARMED, or DISARMED with the run STOPPING: no other order has a run (R119). -/
theorem State.OrdersSound.no_run {n : OrderIx} (hs : s.OrdersSound) (harmed : s.armed n = false)
    (hflag : s.runFlag n ≠ .stopping) : ∀ r ∈ s.executor, r.order ≠ n := by
  rintro r hr rfl
  obtain ⟨o, ho, -, hphase⟩ := hs.run r hr
  rw [Option.mem_def] at hr ho
  cases hstop : r.stopping with
  | true => exact hflag (by simp [State.runFlag, hr, hstop])
  | false =>
    rw [hstop] at hphase
    simp [State.armed, ho, hphase] at harmed

/-- An order slot without a run, replaced by none or by a sound order that is not ready. -/
theorem State.OrdersSound.setOrder {n : OrderIx} {x : Option Order} (hs : s.OrdersSound) (hrun : ∀ r ∈ s.executor, r.order ≠ n)
    (hx : ∀ o ∈ x, o.sound) (hready : ∀ o ∈ x, o.pending = 0) : (s.setOrder n x).OrdersSound := by
  refine State.ordersSound_iff.2 ⟨hs.every.setOrder n hx, fun r hr => ?_, fun hfree m o ho => ?_⟩
  · obtain ⟨o, ho, hsound⟩ := hs.run r hr
    exact ⟨o, by rwa [State.order_setOrder, if_neg (hrun r hr)], hsound⟩
  · rw [State.order_setOrder] at ho
    split at ho
    · exact Order.not_ready (hready o ho)
    · exact hs.idle hfree m o ho

/-- An order is disarmed and its run stopped (R116, R135). -/
theorem State.OrdersSound.disarm (hs : s.OrdersSound) (n : OrderIx) :
    ((s.modifyOrder n Order.disarm).stopRun n).OrdersSound := by
  have horder : ∀ m, ((s.modifyOrder n Order.disarm).stopRun n).order m =
      if m = n then (s.order n).map Order.disarm else s.order m :=
    fun m => (State.order_stopRun ..).trans (State.order_modifyOrder ..)
  refine State.ordersSound_iff.2 ⟨?_, ?_, fun hfree m o ho => ?_⟩
  · exact (hs.every.modifyOrder n (f := Order.disarm) fun _ _ ho => Order.sound_unarmed ho _).same rfl
  · intro r hr
    obtain ⟨r', hr', rfl⟩ := Option.map_eq_some_iff.1 hr
    obtain ⟨o, ho, hposition, hphase⟩ := hs.run r' hr'
    by_cases hn : r'.order = n
    · simp only [hn, if_true]
      subst hn
      refine ⟨o.disarm, ?_, hposition, rfl⟩
      exact (horder _).trans (by rw [Option.mem_def.1 ho]; exact if_pos rfl)
    · simp only [hn, if_false]
      exact ⟨o, (horder _).trans (by rw [if_neg hn]; exact ho), hposition, hphase⟩
  · rw [horder] at ho
    split at ho
    · obtain ⟨o', -, rfl⟩ := Option.map_eq_some_iff.1 ho
      exact Order.not_ready rfl
    · exact hs.idle (Option.map_eq_none_iff.1 hfree) m o ho

/-- A table reset disarms every order and stops the run in flight (R136). -/
theorem State.OrdersSound.tableReset (hs : s.OrdersSound) : s.tableReset.OrdersSound := by
  have horder : ∀ n, s.tableReset.order n = (s.order n).map Order.afterReset := fun n => mapTable_getElem ..
  refine State.ordersSound_iff.2
    ⟨hs.every.ofMap horder fun _ _ _ ho => Order.sound_unarmed ho _, fun r hr => ?_, fun _ n o ho => ?_⟩
  · obtain ⟨r', hr', rfl⟩ := Option.map_eq_some_iff.1 hr
    obtain ⟨o, ho, hposition, -⟩ := hs.run r' hr'
    exact ⟨o.afterReset, (horder r'.order).trans (by rw [Option.mem_def.1 ho]; rfl), hposition, rfl⟩
  · rw [horder] at ho
    obtain ⟨o', -, rfl⟩ := Option.map_eq_some_iff.1 ho
    exact Order.not_ready rfl

/-- One trigger to one ARMED order, and the executor's choice (R121). -/
theorem State.OrdersSound.fire {n : OrderIx} (hs : s.OrdersSound) (harmed : s.armed n = true) : (s.fire n).OrdersSound := by
  refine State.ordersSound_startRun (hs.every.modifyOrder n fun o ho hsound => Order.sound_accept hsound ?_)
    (hs.run.same rfl (State.standing_modifyOrder Order.standing_accept s n))
  simpa [State.armed, Option.mem_def.1 ho] using harmed

/-- The end of a run counts it, retires the order or not, pulses the chain line, and the executor chooses (R131). -/
theorem State.ordersSound_endRun {n : OrderIx} {o : Order} (hs : s.EveryOrderSound) (ho : o.sound) :
    (s.endRun n o).OrdersSound := by
  unfold State.endRun
  refine State.ordersSound_freeExecutor (State.EveryOrderSound.pulse ?_ _)
  split
  · refine (hs.setOrder n ?_).same rfl
    rintro _ ⟨⟩
    exact Order.sound_unarmed (Order.sound_endRun ho) _
  · refine hs.setOrder n ?_
    rintro _ ⟨⟩
    exact Order.sound_endRun ho

/-- A copy event: the run goes on at its next copy, or the executor chooses anew (R125 to R135). -/
theorem State.OrdersSound.takeCopy {r : Run} {o₀ : Order} (hs : s.OrdersSound) (hr : s.executor = some r)
    (ho₀ : s.order r.order = some o₀) : (s.takeCopy r o₀).OrdersSound := by
  have hevery : (s.reported r o₀).EveryOrderSound :=
    (ordersSound_writes.applyCopy r.order o₀ r.position hs).every.modifyOrder _ fun _ _ ho => Order.sound_report ho _
  obtain ⟨o, ho, hstanding⟩ := State.order_reported ho₀
  cases hstop : r.stopping with
  | true =>
    rw [State.takeCopy_stopped ho hstop]
    exact (State.ordersSound_freeExecutor hevery).raiseAll _
  | false =>
    by_cases hmore : r.position + 1 < o.defn.runLength
    · rw [State.takeCopy_goesOn ho hstop hmore]
      refine State.OrdersSound.raiseAll ?_ _
      refine State.ordersSound_iff.2 ⟨hevery.same rfl, ?_, nofun⟩
      rintro _ ⟨⟩
      obtain ⟨o', ho', hsound⟩ := hs.run r hr
      obtain rfl : o₀ = o' := Option.some.inj (ho₀.symm.trans ho')
      exact ⟨o, ho, hmore, (Run.soundFor_congr hstanding hsound).2⟩
    · rw [State.takeCopy_ends ho hstop hmore]
      exact (State.ordersSound_endRun hevery (hevery _ o ho)).raiseAll _

/-- What follows a completion delivers SCAN_END to the orders, or nothing (R150). -/
theorem State.OrdersSound.nextConversion (hs : s.OrdersSound) (a b : Nat) : (s.nextConversion a b).OrdersSound := by
  rw [State.nextConversion_eq]
  split
  · exact hs.same rfl rfl
  · exact (hs.deliverToOrders .scanEnd).same rfl rfl

/-- A tick at a timer delivers its trigger, or nothing (R163). -/
theorem State.OrdersSound.timerTick (hs : s.OrdersSound) (n : Fin 4) : (s.timerTick n).OrdersSound := by
  have hset : ∀ x, (s.setTimer n x).OrdersSound := fun x => hs.same rfl rfl
  unfold State.timerTick
  dsimp only
  split
  · exact (hset _).deliver _
  · exact hset _

/-- An edge delivers the trigger of its line, or nothing (R165). -/
theorem State.OrdersSound.takeEdge (hs : s.OrdersSound) (n : Fin 8) (level : Level) : (s.takeEdge n level).OrdersSound := by
  have hset : ∀ x, (s.setLine n x).OrdersSound := fun x => hs.same rfl rfl
  unfold State.takeEdge
  dsimp only
  split
  · exact (hset _).deliver _
  · exact hset _

end

/-- Every command keeps the orders and the executor sound: it delivers triggers, or is the order engine's own. -/
theorem ordersSound_exec (c : Instr) (s t : State) (hs : s.OrdersSound) (h : exec c s = .next t) : t.OrdersSound := by
  have horders := congrArg State.orders (exec_putBack h)
  have hexecutor := congrArg State.executor (exec_putBack h)
  cases c with
  | coldReset =>
    obtain ⟨-, -, -, -, -, -, -, -, hreset, -⟩ := resetStateIsSound
    cases h
    exact hreset.same rfl rfl
  | write p entries =>
    unfold exec execWrite at h
    refine onRequest_keeps hs (fun _ => ?_) h
    split
    · exact hs.replied
    · exact (ordersSound_writes.takeWrites p _ hs).replied
  | tableReset p =>
    unfold exec execTableReset at h
    refine onRequest_keeps hs (fun _ => ?_) h
    exact (State.OrdersSound.tableReset (s := s.answer p .ok .empty) (hs.same rfl rfl)).settled
  | timerTick n =>
    unfold exec execTimerTick at h
    exact event_keeps hs (fun _ _ => (hs.timerTick n).settled) h
  | timerExpiry n =>
    unfold exec execTimerExpiry at h
    exact event_keeps hs (fun _ _ => (hs.timerTick n).settled) h
  | lineEdge n level =>
    unfold exec execLineEdge at h
    exact event_keeps hs (fun _ _ => (hs.takeEdge n level).settled) h
  | batchCommit p release =>
    unfold exec execBatchCommit at h
    refine onRequest_keeps hs (fun _ => ?_) h
    split
    · exact hs.replied
    · split
      · exact hs.replied
      · exact (ordersSound_writes.commit p _ release ‹_› hs).replied
  | orderDefine p order args =>
    unfold exec execOrderDefine at h
    refine onRequest_keeps hs (fun _ => ?_) h
    split
    · rename_i n d _ hd
      split
      · exact hs.replied
      · split
        · exact hs.replied
        · refine (hs.setOrder (hs.no_run (by simpa using ‹¬ s.armed n = true›) ‹_›) ?_ ?_).replied
          · rintro _ ⟨⟩
            exact OrderDef.sound_fresh (orderDef?_sound hd)
          · rintro _ ⟨⟩
            rfl
    · exact hs.replied
  | orderArm p order =>
    unfold exec execOrderArm at h
    refine onRequest_keeps hs (fun _ => ?_) h
    split
    · exact hs.replied
    · rename_i n _
      split
      · exact hs.replied
      · rename_i o ho
        split
        · exact hs.replied
        · split
          · exact hs.replied
          · split
            · exact hs.replied
            · have hgrant : (s.grantInternal (.order n) o.defn.dests).OrdersSound :=
                hs.same (State.grantInternal_orders ..) (State.grantInternal_executor ..)
              have hrun := hs.no_run (by simpa [State.armed, ho] using ‹¬ o.phase = .armed›) ‹¬ s.runFlag n = .stopping›
              refine (hgrant.setOrder (fun r hr => hrun r (by rwa [← State.grantInternal_executor s])) ?_ ?_).replied
              · rintro _ ⟨⟩
                exact Order.sound_arm (hs.every n o ho)
              · rintro _ ⟨⟩
                rfl
  | orderDisarm p order =>
    unfold exec execOrderDisarm at h
    refine onRequest_keeps hs (fun _ => ?_) h
    split
    · exact hs.replied
    · rename_i n _
      split
      · exact hs.replied
      · rename_i o ho
        obtain ⟨hdef, hpending, hnot, hrest⟩ := hs.every n o ho
        split
        · exact (((hs.disarm n).same (t := ((s.modifyOrder n Order.disarm).stopRun n).releaseHeld (.order n)) rfl rfl).raiseAll
            (s.releaseRaises (.order n))).replied
        · exact hs.replied
        · rename_i hphase
          have hzero : o.pending = 0 := hnot (by simp [hphase])
          refine (hs.setOrder (fun r hr hn => ?_) ?_ ?_).replied
          · obtain ⟨o', ho', -, hphase'⟩ := hs.run r hr
            rw [hn, Option.mem_def, ho, Option.some.injEq] at ho'
            subst ho'
            rw [hphase] at hphase'
            split at hphase' <;> cases hphase'
          · rintro _ ⟨⟩
            exact ⟨hdef, hpending, fun _ => hzero, hrest⟩
          · rintro _ ⟨⟩
            exact hzero
  | orderFire p order =>
    unfold exec execOrderFire at h
    refine onRequest_keeps hs (fun _ => ?_) h
    split
    · exact hs.replied
    · split
      · exact (hs.fire ‹_›).replied
      · exact hs.replied
  | orderClear p order =>
    unfold exec execOrderClear at h
    refine onRequest_keeps hs (fun _ => ?_) h
    split
    · exact hs.replied
    · rename_i n _
      split
      · exact hs.replied
      · split
        · exact hs.replied
        · have hrun := hs.no_run (by simpa using ‹¬ s.armed n = true›) ‹_›
          exact (hs.setOrder (x := none) hrun (fun _ e => nomatch e) fun _ e => nomatch e).replied
  | orderCopy =>
    unfold exec execOrderCopy at h
    refine event_keeps hs (fun _ _ => ?_) h
    split
    · exact hs.settled
    · split
      · exact (State.ordersSound_freeExecutor hs.every).settled
      · exact (hs.takeCopy ‹_› ‹_›).settled
  | conversionCompletion raw =>
    unfold exec execConversionCompletion at h
    refine event_keeps hs (fun _ _ => ?_) h
    split
    · exact hs.settled
    · split
      · exact hs.settled
      · exact (((ordersSound_writes.scanWrite _ raw hs).nextConversion _ _).raiseAll _).settled
  | _ => exact hs.same horders hexecutor

/-- Settles O12: every command keeps the orders and the executor sound, and none reads the queue of commands. -/
theorem ordersStaySound : Obligations.OrdersStaySound :=
  keptByStep_of (fun _ _ hs => hs.same rfl rfl) ordersSound_exec

end Sys2Proof.Machine

namespace Sys2Proof.Machine

/-! ### The internal holder of a point (R32, R48) -/

/-- The internal holder, the scanner or an order; none for a free point and for one that a port holds. -/
def Holder.keeper (h : Holder) : Option Party :=
  match h.party with
  | some (.port _) => Option.none
  | w => w

/-- The internal holder in each slot. -/
def State.keeper (s : State) (i : PointIx) : Option Party := (s.slot i).bind fun pt => pt.holder.keeper

theorem Holder.keeper_congr {h h' : Holder} (hp : h'.party = h.party) : h'.keeper = h.keeper := by
  unfold Holder.keeper
  rw [hp]

theorem Holder.keeper_eq_some {h : Holder} {w : Party} : h.keeper = some w ↔ h.party = some w ∧ ∀ p, w ≠ .port p := by
  cases h with
  | port c => simp +contextual [Holder.keeper, Holder.party, eq_comm]
  | none => simp [Holder.keeper, Holder.party]
  | scanner => simp +contextual [Holder.keeper, Holder.party, eq_comm]
  | order n => simp +contextual [Holder.keeper, Holder.party, eq_comm]

/-- A free point, or one that a port holds, has no internal holder. -/
theorem Holder.keeper_eq_none {h : Holder} {p : Port} (hp : h.party = Option.none ∨ h.party = some (.port p)) :
    h.keeper = Option.none := by
  unfold Holder.keeper
  rcases hp with hp | hp <;> rw [hp]

theorem State.keeper_eq_some {s : State} {i : PointIx} {w : Party} (hw : ∀ p, w ≠ .port p) :
    s.keeper i = some w ↔ s.heldAt i w = true := by
  unfold State.keeper State.heldAt Point.heldBy
  cases s.slot i with
  | none => simp
  | some pt => simp [Holder.keeper_eq_some, hw]

theorem Point.keeper_of_port {pt : Point} {p : Port} (h : pt.heldBy (.port p) = true) : pt.holder.keeper = none :=
  Holder.keeper_eq_none (.inr (of_decide_eq_true h))

/-- A point that is released passes to a port or becomes free (R46). -/
theorem Point.keeper_release (pt : Point) : pt.release.holder.keeper = none := by
  unfold Point.release
  split <;> rfl

theorem Point.keeper_releaseFrom_port (pt : Point) (p : Port) : (pt.releaseFrom (.port p)).holder.keeper = pt.holder.keeper := by
  unfold Point.releaseFrom
  split
  · rw [Point.keeper_release, Point.keeper_of_port ‹_›]
  · rfl

/-- What an internal holder releases has no internal holder any more, and no other point changes its own. -/
theorem Point.keeper_releaseFrom {v : Party} (hv : ∀ p, v ≠ .port p) (pt : Point) :
    (pt.releaseFrom v).holder.keeper = if pt.holder.keeper = some v then none else pt.holder.keeper := by
  have hiff : pt.heldBy v = true ↔ pt.holder.keeper = some v := by simp [Holder.keeper_eq_some, hv, Point.heldBy]
  unfold Point.releaseFrom
  by_cases h : pt.heldBy v = true
  · rw [if_pos h, if_pos (hiff.1 h), Point.keeper_release]
  · rw [if_neg h, if_neg fun e => h (hiff.2 e)]

theorem Point.keeper_written (pt : Point) (v : Word) (q : Quality) : (pt.written v q).holder.keeper = pt.holder.keeper :=
  Holder.keeper_congr (Holder.party_restart _)

theorem Point.keeper_renewFor (pt : Point) (p : Port) : (pt.renewFor p).holder.keeper = pt.holder.keeper := by
  unfold Point.renewFor
  split
  · exact Holder.keeper_congr (Holder.party_restart _)
  · rfl

theorem Point.keeper_aged (pt : Point) : pt.aged.holder.keeper = pt.holder.keeper := by rw [Point.aged_eq]

/-- Only the claim of a port can lapse (R50). -/
theorem Point.keeper_counted (pt : Point) : pt.counted.holder.keeper = pt.holder.keeper := by
  show pt.afterLeases.holder.keeper = _
  unfold Point.afterLeases
  split
  · rename_i hlapse
    obtain ⟨p, hp⟩ := Option.isSome_iff_exists.1 hlapse
    have hheld : pt.heldBy (.port p) = true := by simp [Point.heldBy_of_lapsing hp p]
    rw [Point.keeper_release, Point.keeper_of_port hheld]
  · rw [Holder.countDown_eq]
    exact Holder.keeper_congr (Holder.party_mapLease ..)

/-! ### The internal holders after each operation -/

section
variable {s t : State}

theorem State.keeper_congr (h : t.points = s.points) : t.keeper = s.keeper := by
  funext i
  unfold State.keeper
  rw [State.slot_congr h]

/-- A slot that changes by an operation that keeps its internal holder. -/
theorem State.keeper_of_slot {f : Point → Point} {i : PointIx} (ht : t.slot i = (s.slot i).map f)
    (hf : ∀ pt ∈ s.slot i, (f pt).holder.keeper = pt.holder.keeper) : t.keeper i = s.keeper i := by
  unfold State.keeper
  rw [ht]
  cases hpt : s.slot i with
  | none => rfl
  | some pt => exact hf pt hpt

/-- Every slot changed by an operation that keeps internal holders. -/
theorem State.keeper_of_map {f : Point → Point} (ht : ∀ i, t.slot i = (s.slot i).map f)
    (hf : ∀ pt, (f pt).holder.keeper = pt.holder.keeper) : t.keeper = s.keeper :=
  funext fun i => State.keeper_of_slot (ht i) fun pt _ => hf pt

/-- One slot changed by an operation that keeps its internal holder. -/
theorem State.keeper_of_one {i : PointIx} {f : Point → Point}
    (ht : ∀ j, t.slot j = if j = i then (s.slot i).map f else s.slot j)
    (hf : ∀ pt ∈ s.slot i, (f pt).holder.keeper = pt.holder.keeper) : t.keeper = s.keeper := by
  funext j
  have hj := ht j
  split at hj
  · subst_vars
    exact State.keeper_of_slot hj hf
  · exact congrArg (Option.bind · _) hj

@[simp] theorem State.keeper_settle (s : State) : s.settle.keeper = s.keeper := State.keeper_congr rfl

@[simp] theorem State.keeper_answer (s : State) (p : Port) (st : Status) (b : Body) : (s.answer p st b).keeper = s.keeper :=
  State.keeper_congr rfl

@[simp] theorem State.keeper_raiseAll (s : State) (rs : List Raise) : (s.raiseAll rs).keeper = s.keeper :=
  State.keeper_congr (State.raiseAll_points s rs)

@[simp] theorem State.keeper_setCount (s : State) (p : Port) (n : Nat) : (s.setCount p n).keeper = s.keeper :=
  State.keeper_congr rfl

@[simp] theorem State.keeper_setOrder (s : State) (n : OrderIx) (x : Option Order) : (s.setOrder n x).keeper = s.keeper :=
  State.keeper_congr rfl

theorem State.keeper_releasePoint {p : Port} {i : PointIx} (h : s.holds p i = true) : (s.releasePoint p i).keeper = s.keeper := by
  obtain ⟨pt, hpt, hheld⟩ := State.holds_iff.1 h
  refine State.keeper_of_one (s.slot_releasePoint p i) fun pt' hpt' => ?_
  obtain rfl : pt = pt' := Option.some.inj (hpt.symm.trans hpt')
  rw [Point.keeper_release, Point.keeper_of_port hheld]

theorem State.keeper_store {i : PointIx} {pt : Point} (hpt : s.slot i = some pt) (v : Word) (q : Quality) :
    (s.store i pt v q).keeper = s.keeper := by
  refine State.keeper_of_one (i := i) (f := fun pt => pt.written v q) (fun j => ?_) fun pt _ => pt.keeper_written v q
  rw [State.slot_store, hpt]
  rfl

/-- A slot that nobody holds, defined anew or removed (R11, R12). -/
theorem State.keeper_replaceSlot {i : PointIx} {x : Option Point} (hx : ∀ pt ∈ x, pt.holder = .none)
    (h : s.slotHeld i = false) : (s.replaceSlot i x).keeper = s.keeper := by
  funext j
  unfold State.keeper
  rw [State.slot_replaceSlot]
  split
  · subst_vars
    have hnew : (x.bind fun pt => pt.holder.keeper) = none := by
      rw [Option.bind_eq_none_iff]
      intro pt hpt
      rw [hx pt hpt]
      rfl
    have hold : ((s.slot j).bind fun pt => pt.holder.keeper) = none := by
      rw [Option.bind_eq_none_iff]
      intro pt hpt
      refine Holder.keeper_eq_none (p := .a) (.inl ?_)
      simpa [State.slotHeld, hpt] using h
    rw [hnew, hold]
  · rfl

/-- A CLAIM grants points that are free or its own, or places a wait (R38 to R41). -/
theorem State.keeper_takeClaim (s : State) (p : Port) (args : ClaimArgs) (mode : ClaimMode) (ixs : List PointIx) :
    (s.takeClaim p args mode ixs).1.keeper = s.keeper := by
  obtain h | ⟨i, pt, holder, w, -, -, -, -, -, -, -, -, -, h⟩ | ⟨hall, -, h⟩ := s.takeClaim_cases p args mode ixs
  · rw [h]
  · rw [h, State.keeper_setCount]
    exact State.keeper_of_one (State.slot_modifySlot s i · _) fun _ _ => rfl
  · rw [h]
    funext j
    have hj := State.slot_grantClaim s { port := p, lease := freshLease args.lease.toNat, mode := mode } ixs j
    split at hj
    · refine State.keeper_of_slot hj fun pt hpt => ?_
      obtain ⟨pt', hpt', -, hown⟩ := hall j ‹_›
      obtain rfl : pt = pt' := Option.some.inj (hpt.symm.trans hpt')
      exact (Holder.keeper_eq_none (.inr rfl)).trans (Holder.keeper_eq_none hown).symm
    · exact congrArg (Option.bind · _) hj

theorem State.keeper_releaseAll (s : State) (p : Port) : (s.releaseAll p).keeper = s.keeper := by
  unfold State.releaseAll
  rw [State.keeper_raiseAll, State.keeper_setCount]
  exact State.keeper_of_map (State.slot_mapPoints s _) fun pt => pt.keeper_releaseFrom_port p

theorem State.keeper_portReset (s : State) (p : Port) (w : List Entry) : (s.portReset p w).keeper = s.keeper :=
  State.keeper_of_map (s.slot_portReset p w) fun _ => Point.keeper_releaseFrom_port _ p

theorem State.keeper_ageTable (s : State) : s.ageTable.keeper = s.keeper := State.keeper_of_map s.slot_ageTable Point.keeper_aged

theorem State.keeper_arbiterTick (s : State) : s.arbiterTick.keeper = s.keeper :=
  State.keeper_of_map s.slot_arbiterTick Point.keeper_counted

/-- What an internal holder releases has no internal holder any more (R49). -/
theorem State.keeper_releaseHeld {v : Party} (hv : ∀ p, v ≠ .port p) (s : State) :
    (s.releaseHeld v).keeper = fun i => if s.keeper i = some v then none else s.keeper i := by
  funext i
  unfold State.keeper State.releaseHeld
  rw [State.slot_mapPoints]
  cases s.slot i with
  | none => rfl
  | some pt => exact Point.keeper_releaseFrom hv pt

/-- An internal claim granted at defined points (R48). -/
theorem State.keeper_grantInternal {h : Holder} {l : List PointIx} (hfree : ∀ i ∈ l, s.FreeForInternal i) :
    (s.grantInternal h l).keeper = fun i => if i ∈ l then h.keeper else s.keeper i := by
  funext i
  unfold State.keeper
  rw [State.slot_grantInternal]
  split
  · obtain ⟨pt, hpt, -⟩ := hfree i ‹_›
    rw [Option.mem_def.1 hpt]
    rfl
  · rfl

/-- The parts of a write keep every internal holder. -/
theorem keeper_writes (k : PointIx → Option Party) : KeptByWrites fun s => s.keeper = k where
  store _ _ _ _ _ hpt _ hs := (State.keeper_store hpt ..).trans hs
  raise _ rs hs := (State.keeper_raiseAll _ rs).trans hs
  release _ _ _ pt hpt hheld hs := (State.keeper_releasePoint (State.holds_iff.2 ⟨pt, hpt, hheld⟩)).trans hs
  batch _ _ _ hs := (State.keeper_congr rfl).trans hs

@[simp] theorem State.keeper_freeExecutor (s : State) : s.freeExecutor.keeper = s.keeper :=
  State.keeper_congr (State.startRun_points _)

@[simp] theorem State.keeper_pulse (s : State) (k : Option (Fin 8)) : (s.pulse k).keeper = s.keeper := by
  cases k with
  | none => rfl
  | some k => exact State.keeper_congr (State.deliver_points ..)

@[simp] theorem State.keeper_reported (s : State) (r : Run) (o : Order) : (s.reported r o).keeper = s.keeper :=
  (State.keeper_congr rfl).trans ((keeper_writes s.keeper).applyCopy r.order o r.position rfl)

/-- An event keeps the internal holders that its effect keeps. -/
theorem keeper_of_event {due : Bool} {f : State → State} (h : event due s f = .next t) (hf : (f s).keeper = s.keeper) :
    t.keeper = s.keeper :=
  event_keeps (P := fun w => w.keeper = s.keeper) rfl (fun _ _ => (State.keeper_settle _).trans hf) h

end

/-- The commands that can change an internal holder or its destinations: the resets, and those that arm, disarm or retire. -/
def movesKeepers : Instr → Bool
  | .coldReset | .tableReset .. | .orderArm .. | .orderDisarm .. | .orderCopy | .scanArm .. | .scanDisarm .. => true
  | _ => false

/-- A command that is not one of them leaves every internal holder as it is. -/
theorem exec_leaves_keeper {c : Instr} {s t : State} (hc : movesKeepers c = false) (h : exec c s = .next t) :
    t.keeper = s.keeper := by
  have hwrites := keeper_writes s.keeper
  cases c with
  | coldReset | tableReset | orderArm | orderDisarm | orderCopy | scanArm | scanDisarm => cases hc
  | write p entries =>
    unfold exec execWrite at h
    refine keeper_of_event h ?_
    split
    · exact State.keeper_answer ..
    · exact (State.keeper_answer ..).trans (hwrites.takeWrites p _ rfl)
  | define p args =>
    unfold exec execDefine at h
    refine keeper_of_event h ?_
    split
    · rename_i i d _ _
      split
      · exact State.keeper_answer ..
      · have hfree : s.slotHeld i = false := by simpa using ‹¬ s.slotHeld i = true›
        refine (State.keeper_answer ..).trans (State.keeper_replaceSlot ?_ hfree)
        rintro _ ⟨⟩
        rfl
    · exact State.keeper_answer ..
  | undefine p point =>
    unfold exec execUndefine at h
    refine keeper_of_event h ?_
    split
    · exact State.keeper_answer ..
    · rename_i i _
      split
      · exact State.keeper_answer ..
      · split
        · exact State.keeper_answer ..
        · have hfree : s.slotHeld i = false := by simpa using ‹¬ s.slotHeld i = true›
          exact (State.keeper_answer ..).trans (State.keeper_replaceSlot (x := none) (fun _ e => nomatch e) hfree)
  | claim p args =>
    unfold exec execClaim at h
    refine keeper_of_event h ?_
    split
    · split
      · exact State.keeper_answer ..
      · exact (State.keeper_answer ..).trans (State.keeper_takeClaim ..)
    · exact State.keeper_answer ..
  | release p args =>
    unfold exec execRelease at h
    refine keeper_of_event h ?_
    split
    · exact State.keeper_answer ..
    · exact (State.keeper_answer ..).trans (KeptByTable.takeList (Inv := fun w => w.keeper = s.keeper)
        (fun _ _ hheld hw => (State.keeper_releasePoint hheld).trans hw) _ rfl)
    · exact (State.keeper_answer ..).trans (State.keeper_releaseAll ..)
  | renew p args =>
    unfold exec execRenew at h
    have hrenew := fun pt : Point => pt.keeper_renewFor p
    refine keeper_of_event h ?_
    split
    · exact State.keeper_answer ..
    · exact (State.keeper_answer ..).trans (KeptByTable.takeList (Inv := fun w => w.keeper = s.keeper)
        (fun w i _ hw => (State.keeper_of_one (State.slot_modifySlot w i · _) fun pt _ => hrenew pt).trans hw) _ rfl)
    · exact (State.keeper_answer ..).trans (State.keeper_of_map (State.slot_mapPoints s _) hrenew)
  | withdraw p point =>
    unfold exec execWithdraw at h
    refine keeper_of_event h ?_
    split
    · exact State.keeper_answer ..
    · split
      · rw [State.keeper_answer, State.countDown, State.keeper_setCount]
        exact State.keeper_of_one (State.slot_modifySlot s _ · _) fun _ _ => rfl
      · exact State.keeper_answer ..
  | tickAgeing => exact keeper_of_event h s.keeper_ageTable
  | pointStale i => exact keeper_of_event h s.keeper_ageTable
  | claimArbiterTick => exact keeper_of_event h s.keeper_arbiterTick
  | leaseLapse i => exact keeper_of_event h s.keeper_arbiterTick
  | waitExpiry i p => exact keeper_of_event h s.keeper_arbiterTick
  | batchCommit p release =>
    unfold exec execBatchCommit at h
    refine keeper_of_event h ?_
    split
    · exact State.keeper_answer ..
    · split
      · exact State.keeper_answer ..
      · exact (State.keeper_answer ..).trans (hwrites.commit p _ release ‹_› rfl)
  | conversionCompletion raw =>
    unfold exec execConversionCompletion at h
    refine keeper_of_event h ?_
    split
    · rfl
    · split
      · rfl
      · have hpoints := fun (w : State) a b => congrArg State.points (w.nextConversion_frame a b)
        exact (State.keeper_raiseAll ..).trans ((State.keeper_congr (hpoints ..)).trans (hwrites.scanWrite _ raw rfl))
  | portReset p =>
    unfold exec execPortReset at h
    have hreset : (s.resetOwnPort p).keeper = s.keeper := s.keeper_portReset p _
    exact keeper_of_event h hreset
  | forcePortReset p target =>
    unfold exec execForcePortReset at h
    refine keeper_of_event h ?_
    split
    · exact State.keeper_answer ..
    · split
      · exact s.keeper_portReset p _
      · exact (State.keeper_answer ..).trans (s.keeper_portReset _ [])
  | _ => exact State.keeper_congr (exec_leaves_table rfl h).1

end Sys2Proof.Machine

namespace Sys2Proof.Machine

/-! ### The destinations that an internal holder stands for (R112, R141) -/

/-- The scan list and whether the scanner is ARMED or CONVERTING, which triggers and conversions leave alone. -/
def Scanner.standing (sc : Scanner) : List ScanEntry × Bool := (sc.entries, sc.holds)

/-- What the scanner stands for; none for an EMPTY scanner. -/
def State.scanStanding (s : State) : Option (List ScanEntry × Bool) := s.scanner.map Scanner.standing

/-- The destinations of an order while it is ARMED. -/
def Order.claims (o : Order) : List PointIx := if o.phase = .armed then o.defn.dests else []

/-- The destinations of a scanner while it is ARMED or CONVERTING. -/
def Scanner.claims (sc : Scanner) : List PointIx := if sc.holds then sc.entries.map ScanEntry.dest else []

/-- The points that an internal holder is to hold. -/
def State.claims (s : State) : Party → List PointIx
  | .port _ => []
  | .scanner => (s.scanner.map Scanner.claims).getD []
  | .order n => ((s.order n).map Order.claims).getD []

/-- A trigger taken starts a pass, is held or is counted, and never arms or disarms (R145). -/
theorem Scanner.standing_accept (sc : Scanner) : sc.accept.standing = sc.standing := by
  unfold Scanner.accept
  split <;> simp_all [Scanner.standing, Scanner.holds, Scanner.startPass]
  split <;> simp_all

/-- A pass that ends leaves the scanner ARMED or CONVERTING (R150). -/
theorem Scanner.standing_afterPass {sc : Scanner} (h : sc.holds = true) : sc.countPass.afterPass.standing = sc.standing := by
  rw [Scanner.afterPass_countPass]
  unfold Scanner.standing
  rw [h]
  split
  · exact congrArg (Prod.mk _) h
  · exact congrArg (Prod.mk _) h
  · rfl

/-- The points that each party is to hold, with those of one party replaced. -/
def replaceClaims (c : Party → List PointIx) (v : Party) (l : List PointIx) (u : Party) : List PointIx := if u = v then l else c u

theorem replaceClaims_self (c : Party → List PointIx) (v : Party) : replaceClaims c v (c v) = c := by
  funext u
  unfold replaceClaims
  split
  · subst_vars
    rfl
  · rfl

section
variable {s t : State}

theorem State.mem_claims_order {n : OrderIx} {i : PointIx} : i ∈ s.claims (.order n) ↔ s.isDestOf n i := by
  show i ∈ ((s.order n).map Order.claims).getD [] ↔ _
  unfold State.isDestOf
  cases s.order n with
  | none => simp
  | some o =>
    by_cases h : o.phase = .armed
    · simp [Order.claims, h]
    · simp [Order.claims, h]

theorem State.mem_claims_scanner {i : PointIx} : i ∈ s.claims .scanner ↔ s.isScanned i := by
  show i ∈ (s.scanner.map Scanner.claims).getD [] ↔ _
  unfold State.isScanned
  cases s.scanner with
  | none => simp
  | some sc =>
    by_cases h : sc.holds = true
    · simp [Scanner.claims, h]
    · simp [Scanner.claims, h]

/-- The destinations to hold are read from what the orders and the scanner stand for. -/
theorem State.claims_congr (ho : t.standing = s.standing) (hsc : t.scanStanding = s.scanStanding) : t.claims = s.claims := by
  funext w
  cases w with
  | port p => rfl
  | scanner =>
    have hread : ∀ w : State, w.claims .scanner =
        (w.scanStanding.map fun x => if x.2 then x.1.map ScanEntry.dest else []).getD [] := fun w => by
      unfold State.claims State.scanStanding
      rw [Option.map_map]
      rfl
    rw [hread, hread, hsc]
  | order n =>
    have hread : ∀ w : State, w.claims (.order n) =
        ((w.standing n).map fun x => if x.2 = .armed then x.1.dests else []).getD [] := fun w => by
      unfold State.claims State.standing
      rw [Option.map_map]
      rfl
    rw [hread, hread, ho]

/-- Orders and a scanner that stay as they are keep their destinations. -/
theorem State.claims_same (ho : t.orders = s.orders) (hsc : t.scanner = s.scanner) : t.claims = s.claims :=
  State.claims_congr (State.standing_congr ho) (congrArg (Option.map Scanner.standing) hsc)

theorem State.claims_setOrder (s : State) (n : OrderIx) (x : Option Order) :
    (s.setOrder n x).claims = replaceClaims s.claims (.order n) ((x.map Order.claims).getD []) := by
  funext w
  unfold replaceClaims
  cases w with
  | port p => rfl
  | scanner => rfl
  | order m =>
    unfold State.claims
    simp only [State.order_setOrder, Party.order.injEq]
    split <;> rfl

theorem State.claims_setScanner (s : State) (x : Option Scanner) :
    State.claims { s with scanner := x } = replaceClaims s.claims .scanner ((x.map Scanner.claims).getD []) := by
  funext w
  unfold replaceClaims
  cases w <;> rfl

/-- An order slot that is not ARMED, replaced by none or by an order that is not ARMED. -/
theorem State.claims_setOrder_unarmed {n : OrderIx} {x : Option Order} (harmed : s.armed n = false)
    (hx : ∀ o ∈ x, o.phase ≠ .armed) : (s.setOrder n x).claims = s.claims := by
  have hnone : ∀ y : Option Order, (∀ o ∈ y, o.phase ≠ .armed) → (y.map Order.claims).getD [] = [] := by
    rintro (_ | o) h
    · rfl
    · exact if_neg (h o rfl)
  rw [State.claims_setOrder, hnone x hx, ← hnone (s.order n) fun o ho => by simpa [State.armed, Option.mem_def.1 ho] using harmed]
  exact replaceClaims_self _ _

/-- A scanner that is not ARMED or CONVERTING, replaced by one that is not (R143). -/
theorem State.claims_setScanner_idle {x : Option Scanner} (hidle : ∀ sc ∈ s.scanner, sc.holds = false)
    (hx : ∀ sc ∈ x, sc.holds = false) : State.claims { s with scanner := x } = s.claims := by
  have hnone : ∀ y : Option Scanner, (∀ sc ∈ y, sc.holds = false) → (y.map Scanner.claims).getD [] = [] := by
    rintro (_ | sc) h
    · rfl
    · exact if_neg (by simp [h sc rfl])
  rw [State.claims_setScanner, hnone x hx, ← hnone s.scanner hidle]
  exact replaceClaims_self _ _

/-- The scanner that a SCAN_DEFINE gives is DEFINED (R143). -/
theorem scannerOf?_idle {p : Port} {x : ScanDefineArgs} {sc : Scanner} (h : scannerOf? p x = some sc) : sc.holds = false := by
  unfold scannerOf? at h
  split at h
  · split at h
    · cases h
      rfl
    · cases h
  · cases h

/-! ### What each operation leaves of the scanner's standing -/

@[simp] theorem State.scanStanding_deliver (s : State) (tr : Trigger) : (s.deliver tr).scanStanding = s.scanStanding := by
  rw [State.deliver_eq]
  unfold State.scanStanding
  dsimp only
  rw [Option.map_map]
  congr 1
  funext sc
  dsimp only [Function.comp_apply]
  split
  · exact sc.standing_accept
  · rfl

/-- A write reaches the scanner by its trigger alone (R21). -/
theorem State.scanStanding_store (s : State) (i : PointIx) (pt : Point) (v : Word) (q : Quality) :
    (s.store i pt v q).scanStanding = s.scanStanding := by
  rw [State.store_eq]
  exact s.scanStanding_deliver (.point i)

/-- The parts of a write leave alone what the orders and the scanner stand for. -/
theorem standing_writes (a : OrderIx → Option (OrderDef × OrderPhase)) (b : Option (List ScanEntry × Bool)) :
    KeptByWrites fun s => s.standing = a ∧ s.scanStanding = b where
  store _ _ _ _ _ _ _ hs := ⟨(State.standing_store ..).trans hs.1, (State.scanStanding_store ..).trans hs.2⟩
  raise s rs hs := ⟨(State.standing_congr (s.raiseAll_orders rs)).trans hs.1,
    (congrArg (Option.map Scanner.standing) (s.raiseAll_scanner rs)).trans hs.2⟩
  release s p i _ _ _ hs := ⟨(State.standing_congr (s.releasePoint_orders p i)).trans hs.1,
    (congrArg (Option.map Scanner.standing) (s.releasePoint_scanner p i)).trans hs.2⟩
  batch _ _ _ hs := hs

theorem State.claims_deliver (s : State) (tr : Trigger) : (s.deliver tr).claims = s.claims :=
  State.claims_congr (s.standing_deliver tr) (s.scanStanding_deliver tr)

theorem State.claims_timerTick (s : State) (n : Fin 4) : (s.timerTick n).claims = s.claims := by
  unfold State.timerTick
  dsimp only
  split
  · exact (State.claims_deliver ..).trans (State.claims_same rfl rfl)
  · exact State.claims_same rfl rfl

theorem State.claims_takeEdge (s : State) (n : Fin 8) (level : Level) : (s.takeEdge n level).claims = s.claims := by
  unfold State.takeEdge
  dsimp only
  split
  · exact (State.claims_deliver ..).trans (State.claims_same rfl rfl)
  · exact State.claims_same rfl rfl

theorem State.claims_answer (s : State) (p : Port) (st : Status) (b : Body) : (s.answer p st b).claims = s.claims :=
  State.claims_same rfl rfl

/-- What follows a completion leaves the scanner's list and its claim alone (R149, R150). -/
theorem State.claims_nextConversion {sc : Scanner} (hsc : s.scanner = some sc) (hholds : sc.holds = true) (a b : Nat) :
    (s.nextConversion a b).claims = s.claims := by
  rw [State.nextConversion_eq]
  refine State.claims_congr ?_ ?_
  · split
    · exact State.standing_congr rfl
    · exact (State.standing_congr rfl).trans (s.standing_deliverToOrders .scanEnd)
  · unfold State.scanStanding
    simp only [hsc, Option.map_some]
    split
    · rfl
    · rw [Scanner.standing_afterPass hholds]

/-- An event keeps the destinations to hold that its effect keeps. -/
theorem claims_of_event {due : Bool} {f : State → State} (h : event due s f = .next t) (hf : (f s).claims = s.claims) :
    t.claims = s.claims :=
  event_keeps (P := fun w => w.claims = s.claims) rfl (fun _ _ => hf) h

end

/-- A command that moves no internal holder leaves the destinations of every internal holder as they are. -/
theorem exec_leaves_claims {c : Instr} {s t : State} (hc : movesKeepers c = false) (h : exec c s = .next t) :
    t.claims = s.claims := by
  have horders := congrArg State.orders (exec_putBack h)
  have hscanner := congrArg State.scanner (exec_putBack h)
  have hwrites := standing_writes s.standing s.scanStanding
  have hanswer : ∀ w : State, w.claims = s.claims → ∀ p st b, (w.answer p st b).claims = s.claims := fun w hw p st b =>
    (w.claims_answer p st b).trans hw
  cases c with
  | coldReset | tableReset | orderArm | orderDisarm | orderCopy | scanArm | scanDisarm => cases hc
  | write p entries =>
    unfold exec execWrite at h
    refine claims_of_event h ?_
    split
    · exact hanswer s rfl ..
    · obtain ⟨ho, hsc⟩ := hwrites.takeWrites p ‹_› (s := s) ⟨rfl, rfl⟩
      exact hanswer _ (State.claims_congr ho hsc) ..
  | batchCommit p release =>
    unfold exec execBatchCommit at h
    refine claims_of_event h ?_
    split
    · exact hanswer s rfl ..
    · split
      · exact hanswer s rfl ..
      · obtain ⟨ho, hsc⟩ := hwrites.commit p _ release ‹_› (s := s) ⟨rfl, rfl⟩
        exact hanswer _ (State.claims_congr ho hsc) ..
  | timerTick n =>
    unfold exec execTimerTick at h
    exact claims_of_event h (s.claims_timerTick n)
  | timerExpiry n =>
    unfold exec execTimerExpiry at h
    exact claims_of_event h (s.claims_timerTick n)
  | lineEdge n level =>
    unfold exec execLineEdge at h
    exact claims_of_event h (s.claims_takeEdge n level)
  | orderDefine p order args =>
    unfold exec execOrderDefine at h
    refine claims_of_event h ?_
    split
    · split
      · exact hanswer s rfl ..
      · split
        · exact hanswer s rfl ..
        · refine hanswer _ (State.claims_setOrder_unarmed (by simpa using ‹¬ s.armed _ = true›) ?_) ..
          rintro _ ⟨⟩
          exact nofun
    · exact hanswer s rfl ..
  | orderFire p order =>
    unfold exec execOrderFire at h
    refine claims_of_event h ?_
    split
    · exact hanswer s rfl ..
    · split
      · have hscan : (s.fire ‹_›).scanner = s.scanner := State.startRun_scanner _
        exact hanswer _ (State.claims_congr (s.standing_fire _) (congrArg (Option.map Scanner.standing) hscan)) ..
      · exact hanswer s rfl ..
  | orderClear p order =>
    unfold exec execOrderClear at h
    refine claims_of_event h ?_
    split
    · exact hanswer s rfl ..
    · split
      · exact hanswer s rfl ..
      · split
        · exact hanswer s rfl ..
        · exact hanswer _ (State.claims_setOrder_unarmed (x := none) (by simpa using ‹¬ s.armed _ = true›)
            fun _ e => nomatch e) ..
  | scanDefine p args =>
    unfold exec execScanDefine at h
    refine claims_of_event h ?_
    split
    · exact hanswer s rfl ..
    · rename_i sc hsc
      split
      · exact hanswer s rfl ..
      · rename_i hidle
        have hall : ∀ sc ∈ s.scanner, sc.holds = false :=
          (Option.any_eq_false ..).1 (by simpa only [Bool.not_eq_true] using hidle)
        refine hanswer { s with scanner := some sc } (State.claims_setScanner_idle hall ?_) ..
        rintro _ ⟨⟩
        exact scannerOf?_idle hsc
  | scanStart p =>
    unfold exec execScanStart at h
    refine claims_of_event h ?_
    split
    · exact hanswer s rfl ..
    · rename_i sc hsc
      split
      · exact hanswer s rfl ..
      · refine hanswer { s with scanner := some sc.accept } (State.claims_congr (State.standing_congr rfl) ?_) ..
        unfold State.scanStanding
        rw [hsc]
        exact congrArg some sc.standing_accept
  | scanStop p =>
    unfold exec execScanStop at h
    refine claims_of_event h ?_
    split
    · exact hanswer s rfl ..
    · rename_i sc hsc
      split
      · exact hanswer s rfl ..
      · exact hanswer s rfl ..
      · rename_i hphase
        refine hanswer { s with scanner := some (sc.abandon .armed) } (State.claims_congr (State.standing_congr rfl) ?_) ..
        have hholds : sc.holds = true := by simp [Scanner.holds, hphase]
        unfold State.scanStanding
        rw [hsc]
        exact congrArg (fun x => some (sc.entries, x)) hholds.symm
  | conversionCompletion raw =>
    unfold exec execConversionCompletion at h
    refine event_keeps (P := fun w => w.claims = s.claims) rfl (fun _ hdue => ?_) h
    split
    · rfl
    · rename_i sc hsc
      split
      · rfl
      · rename_i e _
        obtain ⟨ho, hscan⟩ := hwrites.scanWrite e raw (s := s) ⟨rfl, rfl⟩
        obtain ⟨sc', hsc', hstanding⟩ : ∃ sc', (s.scanWrite e raw).1.scanner = some sc' ∧ sc'.standing = sc.standing := by
          simpa only [State.scanStanding, hsc, Option.map_some, Option.map_eq_some_iff] using hscan
        have hconverting : sc.holds = true := by
          have hphase : sc.phase = .converting := by simpa [State.converting, hsc] using hdue
          simp [Scanner.holds, hphase]
        have hholds : sc'.holds = true := (congrArg Prod.snd hstanding).trans hconverting
        have hraised := fun (w : State) rs => State.claims_same (w.raiseAll_orders rs) (w.raiseAll_scanner rs)
        exact (hraised ..).trans ((State.claims_nextConversion hsc' hholds ..).trans (State.claims_congr ho hscan))
  | _ => exact State.claims_same horders hscanner

end Sys2Proof.Machine

namespace Sys2Proof.Machine

/-! ### Internal holders hold exactly their destinations (R112, R141) -/

/-- An internal holder holds the points that it is to hold, and no other. -/
def State.HoldsClaims (s : State) (w : Party) : Prop := ∀ i, s.keeper i = some w ↔ i ∈ s.claims w

section
variable {s t : State} {v w : Party}

theorem State.destsHeld_iff : s.DestsHeld ↔ ∀ n, s.HoldsClaims (.order n) := by
  refine forall_congr' fun n => forall_congr' fun i => ?_
  rw [State.keeper_eq_some (w := .order n) nofun, State.mem_claims_order]

theorem State.scanHeld_iff : s.ScanHeld ↔ s.HoldsClaims .scanner := by
  refine forall_congr' fun i => ?_
  rw [State.keeper_eq_some (w := .scanner) nofun, State.mem_claims_scanner]

/-- What is held and what is to be held read the points, the orders and the scanner alone. -/
theorem State.HoldsClaims.same (hs : s.HoldsClaims w) (hk : t.keeper = s.keeper) (hc : t.claims = s.claims) :
    t.HoldsClaims w := by
  unfold State.HoldsClaims
  rw [hk, hc]
  exact hs

theorem State.HoldsClaims.answer {p : Port} {st : Status} {b : Body} (hs : s.HoldsClaims w) :
    (s.answer p st b).HoldsClaims w :=
  hs.same (s.keeper_answer p st b) (s.claims_answer p st b)

/-- An event keeps it when its effect does. -/
theorem State.HoldsClaims.ofEvent {due : Bool} {f : State → State} (hs : s.HoldsClaims w) (hf : (f s).HoldsClaims w)
    (h : event due s f = .next t) : t.HoldsClaims w :=
  event_keeps (P := fun t => t.HoldsClaims w) hs (fun _ _ => hf.same (State.keeper_settle _) (State.claims_same rfl rfl)) h

theorem State.HoldsClaims.raiseAll (hs : s.HoldsClaims w) (rs : List Raise) : (s.raiseAll rs).HoldsClaims w :=
  hs.same (s.keeper_raiseAll rs) (State.claims_same (s.raiseAll_orders rs) (s.raiseAll_scanner rs))

/-- With no point held and none to hold. -/
theorem State.holdsClaims_none (hk : ∀ i, t.keeper i = none) (hc : ∀ u, t.claims u = []) : t.HoldsClaims w := by
  intro i
  simp [hk, hc]

/-- A holder that releases all it holds, and has nothing to hold any more. -/
theorem State.HoldsClaims.released (hs : s.HoldsClaims w)
    (hk : t.keeper = fun i => if s.keeper i = some v then none else s.keeper i)
    (hc : t.claims = replaceClaims s.claims v []) : t.HoldsClaims w := by
  intro i
  rw [hk, hc, replaceClaims]
  by_cases hw : w = v
  · subst hw
    by_cases hi : s.keeper i = some w <;> simp [hi]
  · rw [if_neg hw, ← hs i]
    by_cases hi : s.keeper i = some v
    · simp [hi, Ne.symm hw]
    · simp [hi]

/-- A holder that had nothing to hold, granted free points to hold. -/
theorem State.HoldsClaims.granted {l : List PointIx} (hs : s.HoldsClaims w) (hnone : s.claims v = [])
    (hfree : ∀ i ∈ l, s.keeper i = none) (hk : t.keeper = fun i => if i ∈ l then some v else s.keeper i)
    (hc : t.claims = replaceClaims s.claims v l) : t.HoldsClaims w := by
  intro i
  rw [hk, hc, replaceClaims]
  by_cases hw : w = v
  · subst hw
    by_cases hi : i ∈ l
    · simp [hi]
    · have hnot : s.keeper i ≠ some w := fun e => by simpa [hnone] using (hs i).1 e
      simp [hi, hnot]
  · rw [if_neg hw, ← hs i]
    by_cases hi : i ∈ l
    · simp [hi, hfree i hi, Ne.symm hw]
    · simp [hi]

/-- Points free for an internal claim have no internal holder. -/
theorem State.keeper_of_free {i : PointIx} (h : s.FreeForInternal i) : s.keeper i = none := by
  obtain ⟨pt, hpt, -, hfree⟩ := h
  unfold State.keeper
  rw [Option.mem_def.1 hpt]
  exact Holder.keeper_eq_none (p := .a) (.inl hfree)

/-! ### Arming, disarming, retirement and the resets -/

/-- ORDER_ARM grants an order that was not ARMED its destinations, all of them free (R48, R115). -/
theorem State.HoldsClaims.armOrder {n : OrderIx} {o : Order} (hs : s.HoldsClaims w) (ho : s.order n = some o)
    (harmed : o.phase ≠ .armed) (hfree : s.firstInternalRefusal o.defn.dests = none) :
    ((s.grantInternal (.order n) o.defn.dests).setOrder n (some o.arm)).HoldsClaims w := by
  have hall : ∀ i ∈ o.defn.dests, s.FreeForInternal i := State.firstInternalRefusal_none hfree
  refine hs.granted (v := .order n) (l := o.defn.dests) ?_ (fun i hi => State.keeper_of_free (hall i hi)) ?_ ?_
  · show ((s.order n).map Order.claims).getD [] = []
    rw [ho]
    exact if_neg harmed
  · exact (State.keeper_setOrder ..).trans (State.keeper_grantInternal hall)
  · rw [State.claims_setOrder, State.claims_same (s.grantInternal_orders ..) (s.grantInternal_scanner ..)]
    rfl

/-- SCAN_ARM grants a DEFINED scanner its destinations, all of them free (R48, R144). -/
theorem State.HoldsClaims.armScanner {sc : Scanner} (hs : s.HoldsClaims w) (hsc : s.scanner = some sc) (hidle : sc.holds = false)
    (hfree : s.firstInternalRefusal (sc.entries.map ScanEntry.dest) = none) :
    State.HoldsClaims { s.grantInternal .scanner (sc.entries.map ScanEntry.dest) with scanner := some sc.arm } w := by
  have hall : ∀ i ∈ sc.entries.map ScanEntry.dest, s.FreeForInternal i := State.firstInternalRefusal_none hfree
  refine hs.granted (v := .scanner) (l := sc.entries.map ScanEntry.dest) ?_ (fun i hi => State.keeper_of_free (hall i hi)) ?_ ?_
  · show (s.scanner.map Scanner.claims).getD [] = []
    rw [hsc]
    exact if_neg (by simp [hidle])
  · exact (State.keeper_congr rfl).trans (State.keeper_grantInternal hall)
  · rw [State.claims_setScanner, State.claims_same (s.grantInternal_orders ..) (s.grantInternal_scanner ..)]
    rfl

/-- ORDER_DISARM releases what the order holds (R116). -/
theorem State.HoldsClaims.disarmOrder {n : OrderIx} (hs : s.HoldsClaims w) : (s.disarmOrder n).HoldsClaims w := by
  have horder : ((s.order n).map Order.disarm).map Order.claims = (s.order n).map fun _ => [] := Option.map_map ..
  have hnone : (((s.order n).map Order.disarm).map Order.claims).getD [] = [] := by
    rw [horder]
    cases s.order n <;> rfl
  unfold State.disarmOrder
  refine State.HoldsClaims.raiseAll (hs.released (v := .order n) ?_ ?_) _
  · exact State.keeper_releaseHeld (v := .order n) nofun _
  · exact (State.claims_same rfl rfl).trans ((s.claims_setOrder n _).trans (by rw [hnone]))

/-- SCAN_DISARM releases what the scanner holds (R152). -/
theorem State.HoldsClaims.disarmScanner (hs : s.HoldsClaims w) (sc : Scanner) : (s.disarmScanner sc).HoldsClaims w := by
  unfold State.disarmScanner
  refine State.HoldsClaims.raiseAll (hs.released (v := .scanner) ?_ ?_) _
  · exact State.keeper_releaseHeld (v := .scanner) nofun _
  · exact (State.claims_same rfl rfl).trans (s.claims_setScanner (some (sc.abandon .defined)))

/-- A table reset frees every point, disarms every order and leaves the scanner DEFINED (R26, R55, R136, R155). -/
theorem State.holdsClaims_tableReset (s : State) : s.tableReset.HoldsClaims w := by
  refine State.holdsClaims_none (fun i => ?_) fun u => ?_
  · unfold State.keeper
    rw [State.slot_tableReset]
    cases s.slot i <;> rfl
  · cases u with
    | port p => rfl
    | scanner =>
      show ((s.scanner.map Scanner.afterReset).map Scanner.claims).getD [] = []
      cases s.scanner <;> rfl
    | order n =>
      have horder : s.tableReset.order n = (s.order n).map Order.afterReset := mapTable_getElem ..
      show ((s.tableReset.order n).map Order.claims).getD [] = []
      rw [horder]
      cases s.order n <;> rfl

theorem State.claims_freeExecutor (s : State) : s.freeExecutor.claims = s.claims :=
  State.claims_congr s.standing_freeExecutor (congrArg (Option.map Scanner.standing) (State.startRun_scanner _))

theorem State.claims_pulse (s : State) (k : Option (Fin 8)) : (s.pulse k).claims = s.claims := by
  cases k with
  | none => rfl
  | some k => exact s.claims_deliver _

/-- The end of a run: an order that retires releases its points, and another stands as it did (R131, R133). -/
theorem State.HoldsClaims.endRun {n : OrderIx} {o : Order} (hs : s.HoldsClaims w) (ho : s.order n = some o) :
    (s.endRun n o).HoldsClaims w := by
  unfold State.endRun
  suffices h : (if o.retires then (s.setOrder n (some o.endRun.retire)).releaseHeld (.order n)
      else s.setOrder n (some o.endRun)).HoldsClaims w from
    (h.same (State.keeper_pulse ..) (State.claims_pulse ..)).same (State.keeper_freeExecutor _) (State.claims_freeExecutor _)
  split
  · refine hs.released (v := .order n) (State.keeper_releaseHeld (v := .order n) nofun _) ?_
    exact (State.claims_same rfl rfl).trans (s.claims_setOrder n (some o.endRun.retire))
  · have hown : s.claims (.order n) = o.claims := by
      show ((s.order n).map Order.claims).getD [] = _
      rw [ho]
      rfl
    refine hs.same (State.keeper_setOrder ..) ?_
    rw [State.claims_setOrder]
    show replaceClaims s.claims (.order n) o.claims = _
    rw [← hown]
    exact replaceClaims_self _ _

/-- A copy's write and its report arm and disarm nothing (R128, R129). -/
theorem State.claims_reported (s : State) (r : Run) (o : Order) : (s.reported r o).claims = s.claims := by
  refine State.claims_congr (s.standing_reported r o) ?_
  exact ((standing_writes s.standing s.scanStanding).applyCopy r.order o r.position ⟨rfl, rfl⟩).2

/-- A copy event moves no internal holder but that of an order that retires (R128, R133). -/
theorem State.HoldsClaims.takeCopy {r : Run} {o₀ : Order} (hs : s.HoldsClaims w) (ho₀ : s.order r.order = some o₀) :
    (s.takeCopy r o₀).HoldsClaims w := by
  have hreported : (s.reported r o₀).HoldsClaims w := hs.same (s.keeper_reported r o₀) (s.claims_reported r o₀)
  obtain ⟨o, ho, -⟩ := State.order_reported ho₀
  cases hstop : r.stopping with
  | true =>
    rw [State.takeCopy_stopped ho hstop]
    exact (hreported.same (State.keeper_freeExecutor _) (State.claims_freeExecutor _)).raiseAll _
  | false =>
    by_cases hmore : r.position + 1 < o.defn.runLength
    · rw [State.takeCopy_goesOn ho hstop hmore]
      refine State.HoldsClaims.raiseAll ?_ _
      exact hreported.same (State.keeper_congr rfl) (State.claims_same rfl rfl)
    · rw [State.takeCopy_ends ho hstop hmore]
      exact (hreported.endRun ho).raiseAll _

end

/-- Every command keeps each internal holder to its destinations: it moves none, or it is a reset, or it arms, disarms or
retires one. -/
theorem holdsClaims_exec {w : Party} (c : Instr) (s t : State) (hs : s.HoldsClaims w) (h : exec c s = .next t) :
    t.HoldsClaims w := by
  cases c with
  | coldReset =>
    cases h
    refine State.holdsClaims_none (fun i => ?_) fun u => ?_
    · show State.reset.keeper i = none
      simp [State.keeper]
    · show State.reset.claims u = []
      cases u <;> simp [State.claims]
  | tableReset p =>
    unfold exec execTableReset at h
    exact hs.ofEvent (State.holdsClaims_tableReset (s.answer p .ok .empty)) h
  | orderArm p order =>
    unfold exec execOrderArm at h
    refine hs.ofEvent ?_ h
    split
    · exact hs.answer
    · split
      · exact hs.answer
      · split
        · exact hs.answer
        · split
          · exact hs.answer
          · split
            · exact hs.answer
            · exact (hs.armOrder ‹_› ‹_› ‹_›).answer
  | orderDisarm p order =>
    unfold exec execOrderDisarm at h
    refine hs.ofEvent ?_ h
    split
    · exact hs.answer
    · split
      · exact hs.answer
      · rename_i o ho
        split
        · exact hs.disarmOrder.answer
        · exact hs.answer
        · rename_i hphase
          refine (hs.same (State.keeper_setOrder ..) (State.claims_setOrder_unarmed ?_ ?_)).answer
          · simp [State.armed, ho, hphase]
          · rintro _ ⟨⟩
            exact nofun
  | orderCopy =>
    unfold exec execOrderCopy at h
    refine hs.ofEvent ?_ h
    split
    · exact hs
    · split
      · exact hs.same s.keeper_freeExecutor s.claims_freeExecutor
      · exact hs.takeCopy ‹_›
  | scanArm p =>
    unfold exec execScanArm at h
    refine hs.ofEvent ?_ h
    split
    · exact hs.answer
    · split
      · exact hs.answer
      · dsimp only
        split
        · exact hs.answer
        · exact (hs.armScanner ‹_› (by simpa using ‹¬ Scanner.holds _ = true›) ‹_›).answer
  | scanDisarm p =>
    unfold exec execScanDisarm at h
    refine hs.ofEvent ?_ h
    split
    · exact hs.answer
    · split
      · exact (hs.disarmScanner _).answer
      · exact hs.answer
  | _ => exact hs.same (exec_leaves_keeper rfl h) (exec_leaves_claims rfl h)

/-- No step parts an internal holder from its destinations. -/
theorem holdsClaims_keptByStep (w : Party) : KeptByStep fun s => s.HoldsClaims w :=
  keptByStep_of (fun _ _ hs => hs.same (State.keeper_congr rfl) (State.claims_same rfl rfl)) holdsClaims_exec

/-- Settles O13: every step keeps each order and the scanner to its own destinations. -/
theorem internalHoldersHoldTheirDestinations : Obligations.InternalHoldersHoldTheirDestinations := by
  refine ⟨fun s t hs h => ?_, fun s t hs h => ?_⟩
  · rw [State.destsHeld_iff] at hs ⊢
    exact fun n => holdsClaims_keptByStep (.order n) s t (hs n) h
  · rw [State.scanHeld_iff] at hs ⊢
    exact holdsClaims_keptByStep .scanner s t hs h

end Sys2Proof.Machine

namespace Sys2Proof.Machine

/-! ### ORDER_DEFINE, ORDER_CLEAR and ORDER_QUERY (R113, R114, R117 to R119) -/

/-- The checks 2 to 5 of R113, field by field (Table 10.1-1). -/
theorem orderDef?_eq_some_fields (p : Port) (args : OrderArgs) (d : OrderDef) : orderDef? p args = some d ↔
    d.owner = p ∧ CarriesTrigger args.trigger d.trigger ∧ d.source.val = args.source.toNat ∧
      d.runLength = args.runLength.toNat ∧ d.dest.val = args.dest.toNat ∧
      (match d.step with
        | .fixed => args.step = 0x00
        | .step => args.step = 0x01
        | .stepWrap w => args.step = 0x02 ∧ w = args.wrap.toNat ∧ 1 ≤ w ∧ w ≤ 32 ∧ d.source.val + w * d.runLength - 1 ≤ 511) ∧
      (match d.transform with
        | .copy => args.transform = 0x00
        | .scale gain offset => args.transform = 0x01 ∧ gain = args.gain ∧ offset = args.offset
        | .invert => args.transform = 0x02
        | .compare threshold => args.transform = 0x03 ∧ threshold = args.threshold) ∧
      d.runs = args.runs.toNat ∧
      (match d.chain with
        | none => args.chain = 0xFF
        | some n => args.chain.toNat = n.val) ∧
      1 ≤ d.runLength ∧ d.runLength ≤ 16 ∧ d.source.val + d.runLength - 1 ≤ 511 ∧ d.dest.val + d.runLength - 1 ≤ 511 := by
  rw [orderDef?_eq_some, runsFit_iff, trigger?_eq_some, pointIx?_eq_some, pointIx?_eq_some, sourceStep?_eq_some,
    transform?_eq_some, chain?_eq_some]
  constructor
  · rintro ⟨howner, ⟨hpos, hmost, hin, hout⟩, htrigger, hsource, hdest, hstep, htransform, hchain, hlength, hruns⟩
    rw [hlength, ← hsource, ← hdest]
    exact ⟨howner, htrigger, rfl, rfl, rfl, hstep, htransform, hruns, hchain, hpos, hmost, by omega, by omega⟩
  · rintro ⟨howner, htrigger, hsource, hlength, hdest, hstep, htransform, hruns, hchain, hpos, hmost, hin, hout⟩
    rw [hlength] at hpos hmost hin hout hstep
    rw [hsource] at hin hstep
    rw [hdest] at hout
    exact ⟨howner, ⟨hpos, hmost, by omega, by omega⟩, htrigger, hsource.symm, hdest.symm, hstep, htransform, hchain, hlength,
      hruns⟩

section
variable {s : State} {p : Port} {num : Byte} {n : OrderIx}

/-- An ORDER_DEFINE that is due with arguments that fail a check of R113. -/
theorem exec_orderDefine_badArg {args : OrderArgs} (hdue : s.Due p (.orderDefine num args))
    (h : 31 < num.toNat ∨ orderDef? p args = none) :
    exec (.orderDefine p num args) s = .next (s.answer p .badArg .empty).settle := by
  show execOrderDefine p num args s = _
  rw [execOrderDefine, onRequest_due hdue]
  rw [← orderIx?_eq_none] at h
  split
  · rename_i hn hd
    rw [hn, hd] at h
    simp at h
  · rfl

/-- An ORDER_DEFINE that is due with arguments that pass, by the state of its slot (R113, R114). -/
theorem exec_orderDefine_passed {args : OrderArgs} {d : OrderDef} (hdue : s.Due p (.orderDefine num args))
    (hn : num.toNat = n.val) (hd : orderDef? p args = some d) :
    exec (.orderDefine p num args) s = .next (if s.armed n then s.answer p .state .empty
      else if s.runFlag n = .stopping then s.answer p .busy .empty
      else (s.setOrder n (some d.fresh)).answer p .ok .empty).settle := by
  show execOrderDefine p num args s = _
  rw [execOrderDefine, onRequest_due hdue, (orderIx?_eq_some num n).2 hn, hd]

/-- An ORDER_CLEAR that is due with a number above 31. -/
theorem exec_orderClear_badArg (hdue : s.Due p (.orderClear num)) (h : 31 < num.toNat) :
    exec (.orderClear p num) s = .next (s.answer p .badArg .empty).settle := by
  show execOrderClear p num s = _
  rw [execOrderClear, onRequest_due hdue, (orderIx?_eq_none num).2 h]

/-- An ORDER_CLEAR that is due, by the state of its slot (R117). -/
theorem exec_orderClear_passed (hdue : s.Due p (.orderClear num)) (hn : num.toNat = n.val) :
    exec (.orderClear p num) s = .next (if s.armed n then s.answer p .state .empty
      else if s.runFlag n = .stopping then s.answer p .busy .empty
      else (s.setOrder n none).answer p .ok .empty).settle := by
  show execOrderClear p num s = _
  rw [execOrderClear, onRequest_due hdue, (orderIx?_eq_some num n).2 hn]

/-- An ORDER_QUERY that is due with a number above 31. -/
theorem exec_orderQuery_badArg (hdue : s.Due p (.orderQuery num)) (h : 31 < num.toNat) :
    exec (.orderQuery p num) s = .next (s.answer p .badArg .empty).settle := by
  show execOrderQuery p num s = _
  rw [execOrderQuery, onRequest_due hdue, (orderIx?_eq_none num).2 h]

/-- An ORDER_QUERY that is due reports the record, the run position and the run flag (R118). -/
theorem exec_orderQuery_passed (hdue : s.Due p (.orderQuery num)) (hn : num.toNat = n.val) :
    exec (.orderQuery p num) s =
      .next (s.answer p .ok (.order n (s.order n) (s.runPosition n) (s.runFlag n))).settle := by
  show execOrderQuery p num s = _
  rw [execOrderQuery, onRequest_due hdue, (orderIx?_eq_some num n).2 hn]

/-- An order slot replaced and the request answered: that slot, and nothing else but the answer. -/
theorem State.setOrder_answered (x : Option Order) :
    Replied s ((s.setOrder n x).answer p .ok .empty).settle p .ok .empty ∧
      ((s.setOrder n x).answer p .ok .empty).settle.order n = x ∧
      (∀ m, m ≠ n → ((s.setOrder n x).answer p .ok .empty).settle.order m = s.order m) ∧
      { ((s.setOrder n x).answer p .ok .empty).settle with orders := s.orders, ports := s.ports } = s :=
  ⟨replied_answer rfl p _ _, (s.order_setOrder n n x).trans (if_pos rfl),
    fun m hm => (s.order_setOrder n m x).trans (if_neg hm), rfl⟩

/-- The executor's run flag and position, at the order of its run and at any other (R119, log 14). -/
theorem State.runFlag_of_run {r : Run} (hr : s.executor = some r) (hn : r.order = n) :
    s.runFlag n = (if r.stopping then .stopping else .running) ∧ s.runPosition n = r.position := by
  simp [State.runFlag, State.runPosition, hr, hn]

theorem State.runFlag_of_no_run (h : ∀ r, s.executor = some r → r.order ≠ n) : s.runFlag n = .none ∧ s.runPosition n = 0 := by
  unfold State.runFlag State.runPosition
  cases hex : s.executor with
  | none => exact ⟨rfl, rfl⟩
  | some r => exact ⟨if_neg (h r hex), if_neg (h r hex)⟩

end

/-- Settles O39: the checks of ORDER_DEFINE, and the three requests case by case. -/
theorem orderDefineClearAndQuery : Obligations.OrderDefineClearAndQuery := by
  refine ⟨⟨fun s p num args hdue => ⟨fun hbad => onlyReplies_of (exec_orderDefine_badArg hdue hbad), fun n d hn hd => ?_⟩,
      orderDef?_eq_some_fields⟩,
    fun s p num hdue => ⟨fun hbad => onlyReplies_of (exec_orderClear_badArg hdue hbad), fun n hn => ?_⟩,
    fun s p num hdue => ⟨fun hbad => onlyReplies_of (exec_orderQuery_badArg hdue hbad),
      fun n hn => onlyReplies_of (exec_orderQuery_passed hdue hn)⟩,
    fun s n => ⟨fun r hr hn => State.runFlag_of_run hr hn, State.runFlag_of_no_run⟩⟩
  · have hexec := exec_orderDefine_passed hdue hn hd
    refine ⟨fun harmed => onlyReplies_of ?_, fun harmed hflag => onlyReplies_of ?_,
      fun harmed hflag => ⟨_, ?_, State.setOrder_answered _⟩⟩
    · rw [hexec, if_pos harmed]
    · rw [hexec, if_neg (by simp [harmed]), if_pos hflag]
    · rw [hexec, if_neg (by simp [harmed]), if_neg hflag]
      rfl
  · have hexec := exec_orderClear_passed hdue hn
    refine ⟨fun harmed => onlyReplies_of ?_, fun harmed hflag => onlyReplies_of ?_,
      fun harmed hflag => ⟨_, ?_, State.setOrder_answered _⟩⟩
    · rw [hexec, if_pos harmed]
    · rw [hexec, if_neg (by simp [harmed]), if_pos hflag]
    · rw [hexec, if_neg (by simp [harmed]), if_neg hflag]

end Sys2Proof.Machine

namespace Sys2Proof.Machine

/-! ### Triggers and ORDER_FIRE (R120, R121, R123, R145, R167) -/

section
variable {s : State} {p : Port} {num : Byte} {n : OrderIx} {o : Order}

/-- A trigger taken, by the pending count (R120). -/
theorem Order.accept_cases (o : Order) : (o.pending < 3 → o.accept = { o with pending := o.pending + 1 }) ∧
    (3 ≤ o.pending → o.accept = { o with missed := if o.missed < 65535 then o.missed + 1 else o.missed }) :=
  ⟨Order.accept_room, Order.accept_full⟩

/-- A trigger taken by the scanner, by its state, its mode and its pending pass (R145). -/
theorem Scanner.accept_cases (sc : Scanner) :
    (sc.phase = .armed → sc.accept = { sc with phase := .converting, current := 0 }) ∧
      (sc.phase = .converting → sc.mode = .single → sc.pendingPass = false → sc.accept = { sc with pendingPass := true }) ∧
      (sc.phase = .converting → sc.mode = .single → sc.pendingPass = true →
        sc.accept = { sc with missed := if sc.missed < 65535 then sc.missed + 1 else sc.missed }) ∧
      (sc.phase = .converting → sc.mode = .continuous → sc.accept = sc) ∧ (sc.phase = .defined → sc.accept = sc) := by
  unfold Scanner.accept
  refine ⟨fun hphase => ?_, fun hphase hmode hflag => ?_, fun hphase hmode hflag => ?_, fun hphase hmode => ?_, fun hphase => ?_⟩
  · rw [hphase]
    rfl
  · simp only [hphase, hmode, hflag, Bool.false_eq_true, if_false]
  · simp only [hphase, hmode, hflag, if_true]
    rfl
  · rw [hphase, hmode]
  · rw [hphase]

/-- A free executor starts the lowest-numbered ready order and changes nothing else (R123). -/
theorem State.startRun_lowest (hfree : s.executor = none) (ho : s.order n = some o) (hready : o.ready = true)
    (hlow : ∀ m, m < n → ∀ x ∈ s.order m, x.ready = false) :
    s.startRun.executor = some { order := n, position := 0, stopping := false } ∧
      s.startRun.order n = some { o with pending := o.pending - 1 } ∧ (∀ m, m ≠ n → s.startRun.order m = s.order m) ∧
      { s.startRun with orders := s.orders, executor := s.executor } = s := by
  have horder := fun m => State.order_modifyOrder s n m Order.serve
  have hframe := s.startRun_frame
  rw [State.startRun_chosen hfree (State.lowestReady_eq_some.2 ⟨⟨o, ho, hready⟩, hlow⟩)] at hframe ⊢
  refine ⟨rfl, (horder n).trans ?_, fun m hm => (horder m).trans (if_neg hm), hframe⟩
  rw [if_pos rfl, ho]
  rfl

/-- The orders after a trigger, one by one (R167). -/
theorem State.order_heard_eq (s : State) (tr : Trigger) (n : OrderIx) : (s.heard tr).order n =
    (s.order n).map fun o => if o.defn.trigger = tr ∧ o.phase = .armed then o.accept else o := by
  rw [State.order_heard]
  congr 1
  funext o
  simp only [Order.heard, Order.hears_iff]

theorem State.armed_of_order (ho : s.order n = some o) (harmed : o.phase = .armed) : s.armed n = true := by
  simp [State.armed, ho, harmed]

/-- An ORDER_FIRE that is due with a number above 31. -/
theorem exec_orderFire_badArg (hdue : s.Due p (.orderFire num)) (h : 31 < num.toNat) :
    exec (.orderFire p num) s = .next (s.answer p .badArg .empty).settle := by
  show execOrderFire p num s = _
  rw [execOrderFire, onRequest_due hdue, (orderIx?_eq_none num).2 h]

/-- An ORDER_FIRE that is due, by the state of its slot (R121). -/
theorem exec_orderFire_passed (hdue : s.Due p (.orderFire num)) (hn : num.toNat = n.val) :
    exec (.orderFire p num) s = .next (if s.armed n then (s.fire n).answer p .ok ((s.fire n).fireBody n)
      else s.answer p .state .empty).settle := by
  show execOrderFire p num s = _
  rw [execOrderFire, onRequest_due hdue, (orderIx?_eq_some num n).2 hn]

/-- One trigger to an order is that order's taking it, and the executor's choice. -/
theorem State.fire_eq (ho : s.order n = some o) : s.fire n = (s.setOrder n (some o.accept)).startRun := by
  unfold State.fire State.modifyOrder
  rw [ho]
  rfl

/-- The order fired is there after the executor's choice. -/
theorem State.isSome_order_fire (ho : s.order n = some o) : ((s.fire n).order n).isSome = true := by
  have hstanding : ((s.fire n).order n).map Order.standing = some o.standing :=
    (congrFun (s.standing_fire n) n).trans (congrArg (Option.map Order.standing) ho)
  have hsome := congrArg Option.isSome hstanding
  rwa [Option.isSome_map] at hsome

end

/-- Settles O42: one trigger at an order, at the executor and at the scanner, its delivery to all of them, and ORDER_FIRE. -/
theorem triggersReachTheirConsumers : Obligations.TriggersReachTheirConsumers := by
  refine ⟨fun o => Order.ready_iff, ⟨Order.accept_cases, fun s => ⟨fun r => State.startRun_busy, fun _ => State.startRun_idle,
      fun n o hfree ho hready hlow => State.startRun_lowest hfree ho hready hlow⟩, Scanner.accept_cases,
      fun s tr => ⟨(s.deliverToScanner tr).heard tr, s.deliver_heard tr, State.order_heard_eq _ tr, rfl, rfl⟩,
      fun s tr => ⟨s.heard tr, s.deliverToOrders_heard tr, s.order_heard_eq tr, rfl⟩⟩, fun s p num hdue =>
      ⟨fun hbad => onlyReplies_of (exec_orderFire_badArg hdue hbad), fun n hn =>
        ⟨fun harmed => onlyReplies_of ?_, fun o ho harmed => ?_⟩⟩⟩
  · rw [exec_orderFire_passed hdue hn, if_neg (by simp [harmed])]
  · obtain ⟨o', ho'⟩ := Option.isSome_iff_exists.1 (State.isSome_order_fire (s := s) ho)
    have hexec := exec_orderFire_passed hdue hn
    rw [if_pos (State.armed_of_order ho harmed)] at hexec
    have hports : (s.fire n).ports = s.ports := State.startRun_ports _
    have hbody : (s.fire n).fireBody n = .orderFire o'.pending o'.missed ((s.fire n).runFlag n) := by
      simp only [State.fireBody, ho']
    refine ⟨_, o', hexec, (State.answered_frame hports p _ _).trans (State.fire_eq ho), ho', ?_⟩
    rw [hbody]
    exact replied_answer hports p _ _

end Sys2Proof.Machine

namespace Sys2Proof.Machine

/-! ### The transforms (R127) -/

/-- A BOOL source against a threshold: 0 or 1 (R127). -/
theorem Transform.result_compare_bool (threshold v : Word) (hv : v = 0 ∨ v = 1) :
    (Transform.compare threshold).result .bool (Kind.bool.num v) =
      if 2 ≤ threshold.toNat then 0 else if threshold = 1 then Kind.bool.num v else 1 := by
  have hone : threshold = 1 ↔ threshold.toNat = 1 := BitVec.toNat_eq
  have hresult : (Transform.compare threshold).result .bool (Kind.bool.num v) =
      if (threshold.toNat : Int) ≤ v.toNat then 1 else 0 := rfl
  have hnum : Kind.bool.num v = v.toNat := rfl
  have hbit : v.toNat = 0 ∨ v.toNat = 1 := hv.imp (congrArg BitVec.toNat) (congrArg BitVec.toNat)
  rw [hresult, hnum]
  by_cases htwo : 2 ≤ threshold.toNat
  · rw [if_pos htwo, if_neg (by omega)]
  · rw [if_neg htwo]
    by_cases hat : threshold.toNat = 1
    · rw [if_pos (hone.2 hat)]
      split <;> omega
    · rw [if_neg (mt hone.1 hat), if_pos (by omega)]

/-- Settles O43: each transform by its definition, and the examples by computation. -/
theorem transformArithmetic : Obligations.TransformArithmetic := by
  refine ⟨fun _ _ => rfl, fun _ _ _ _ => rfl, fun _ _ => rfl, fun _ _ _ => rfl, by decide, by decide,
    Transform.result_compare_bool, fun x => ?_, by decide, by decide⟩
  show (x * 256).tdiv 256 + 0 = x
  rw [Int.mul_tdiv_cancel x (by decide), Int.add_zero]

/-! ### One copy (R125, R128) -/

theorem PointIx.val_plus {i : PointIx} {k : Nat} (h : i.val + k < 512) : (PointIx.plus i k).val = i.val + k :=
  Nat.mod_eq_of_lt h

section
variable {s : State} {n : OrderIx} {o : Order} {k : Nat} {pt src : Point}

/-- Step 1 of R125: the order does not hold the destination. -/
theorem State.copyOutcome_notHeld (h : s.heldAt (PointIx.plus o.defn.dest k) (.order n) = false) :
    s.copyOutcome n o k = .refused := by
  unfold State.copyOutcome
  dsimp only
  split
  · rfl
  · rename_i pt hpt
    exact if_pos (by simpa [State.heldAt, hpt] using h)

/-- Step 2 of R125: the source is undefined. -/
theorem State.copyOutcome_noSource (hpt : s.slot (PointIx.plus o.defn.dest k) = some pt) (hheld : pt.heldBy (.order n) = true)
    (hsrc : s.slot (PointIx.plus o.base k) = none) : s.copyOutcome n o k = .fault := by
  simp [State.copyOutcome, hpt, hheld, hsrc]

/-- Step 2 of R125: the source is UNSET. -/
theorem State.copyOutcome_unset (hpt : s.slot (PointIx.plus o.defn.dest k) = some pt) (hheld : pt.heldBy (.order n) = true)
    (hsrc : s.slot (PointIx.plus o.base k) = some src) (hunset : src.quality = .unset) : s.copyOutcome n o k = .fault := by
  simp [State.copyOutcome, hpt, hheld, hsrc, hunset]

/-- Steps 3 and 4 of R125: the transform and the limits. -/
theorem State.copyOutcome_result (hpt : s.slot (PointIx.plus o.defn.dest k) = some pt) (hheld : pt.heldBy (.order n) = true)
    (hsrc : s.slot (PointIx.plus o.base k) = some src) (hset : src.quality ≠ .unset) :
    s.copyOutcome n o k =
      if pt.defn.rejects (o.defn.transform.result src.defn.kind (src.defn.kind.num src.value)) then .fault
      else .written (PointIx.plus o.defn.dest k) pt
        (pt.defn.fit (o.defn.transform.result src.defn.kind (src.defn.kind.num src.value)))
        (if src.quality = .good then .good else .suspect)
        (!pt.defn.inRange (o.defn.transform.result src.defn.kind (src.defn.kind.num src.value))) := by
  simp only [State.copyOutcome, hpt, hheld, hsrc, hset, Bool.not_true, Bool.false_eq_true, if_false]
  rfl

end

/-! ### ORDER_COPY (R128, R129, R135) -/

section
variable {s : State} {r : Run} {o : Order}

/-- An ORDER_COPY that is due takes the copy under way. -/
theorem exec_orderCopy_due (hheld : s.held = false) (hr : s.executor = some r) (ho : s.order r.order = some o) :
    exec .orderCopy s = .next (s.takeCopy r o).settle := by
  show execOrderCopy s = _
  rw [execOrderCopy, hr, Option.isSome_some, event_due hheld]
  simp only [hr, ho]

/-- A refused copy reports nothing: the state stays (R125). -/
theorem State.reported_refused (h : s.copyOutcome r.order o r.position = .refused) : s.reported r o = s := by
  have hreport : (fun x : Order => x.report .refused) = id := funext fun _ => rfl
  unfold State.reported
  rw [h, hreport]
  show s.setOrder r.order ((s.order r.order).map id) = s
  rw [Option.map_id, id]
  unfold State.setOrder State.order
  rw [Vector.set_getElem_self]

/-- The orders after the report of a copy: a fault is counted at the order of the run (R129). -/
theorem State.order_reported_eq (s : State) (r : Run) (o : Order) (m : OrderIx) :
    (s.reported r o).order m =
      if m = r.order ∧ s.copyOutcome r.order o r.position = .fault then
        ((s.applyCopy (s.copyOutcome r.order o r.position)).order m).map fun x => { x with faults := countUp x.faults }
      else (s.applyCopy (s.copyOutcome r.order o r.position)).order m := by
  unfold State.reported
  generalize s.copyOutcome r.order o r.position = outcome
  rw [State.order_modifyOrder]
  by_cases hm : m = r.order
  · subst hm
    by_cases hfault : outcome = .fault
    · simp only [hfault, Order.report, if_true, and_self]
    · simp [hfault, Order.report]
  · simp [hm]

/-- The copy of a stopped run that is refused, as every copy of it is: the run ends uncounted (R135). -/
theorem exec_orderCopy_stopped (hheld : s.held = false) (hr : s.executor = some r) (ho : s.order r.order = some o)
    (hstop : r.stopping = true) (hlost : s.heldAt (PointIx.plus o.defn.dest r.position) (.order r.order) = false) :
    exec .orderCopy s = .next (State.startRun { s with executor := none }).settle := by
  have hout := State.copyOutcome_notHeld hlost
  have hsame := State.reported_refused hout
  rw [exec_orderCopy_due hheld hr ho, State.takeCopy_stopped (o := o) (by rw [hsame]; exact ho) hstop, hsame, hout]
  rfl

/-- A copy before the last of its run: what it wrote and reported, and the next copy presented (R128, R129). -/
theorem exec_orderCopy_goesOn (hheld : s.held = false) (hr : s.executor = some r) (ho : s.order r.order = some o)
    (hstop : r.stopping = false) (hmore : r.position + 1 < o.defn.runLength) :
    exec .orderCopy s =
      .next (State.raiseAll { s.reported r o with executor := some { r with position := r.position + 1 } }
        (s.copyRaises (s.copyOutcome r.order o r.position) ++
          if s.copyOutcome r.order o r.position = .fault then [⟨o.defn.owner, .order r.order, .orderFault⟩] else [])).settle := by
  obtain ⟨o', ho', hstanding⟩ := State.order_reported ho
  have hdefn : o'.defn = o.defn := congrArg Prod.fst hstanding
  rw [exec_orderCopy_due hheld hr ho, State.takeCopy_goesOn ho' hstop (by rwa [hdefn]), hdefn]
  simp only [orderRaises, Bool.false_eq_true, if_false, List.append_nil]

end

/-- An event whose effect leaves the ports alone changes them in their attention lines only (R182). -/
theorem quiet_settle {s w : State} (hw : w.ports = s.ports) : Quiet s w.settle := by
  intro q
  rw [← hw]
  exact w.ports_settle q

theorem State.settled_frame {s w : State} (hw : w.ports = s.ports) : { w.settle with ports := s.ports } = w := by
  rw [← hw]
  rfl

/-- Settles O44: the steps of R125 one by one, a stopped run's copy, and a copy before the last. -/
theorem orderCopyTakesItsSteps : Obligations.OrderCopyTakesItsSteps := by
  refine ⟨fun _ => rfl, ⟨fun i k => PointIx.val_plus, ?_⟩, fun s r o hheld hr ho => ⟨fun hstop hlost => ?_, ?_,
    ⟨rfl, rfl, rfl, rfl⟩, fun _ _ _ _ _ => ⟨rfl, rfl⟩⟩⟩
  · intro s n o k dest source
    exact ⟨State.copyOutcome_notHeld, fun pt hpt hheld => ⟨State.copyOutcome_noSource hpt hheld, fun src hsrc =>
      ⟨State.copyOutcome_unset hpt hheld hsrc, State.copyOutcome_result hpt hheld hsrc⟩⟩⟩
  · have hports : (State.startRun { s with executor := none }).ports = s.ports := State.startRun_ports _
    exact ⟨_, exec_orderCopy_stopped hheld hr ho hstop hlost, quiet_settle hports, State.settled_frame hports⟩
  · intro hstop hmore outcome w
    have hports : (s.applyCopy outcome).ports = s.ports :=
      (congrArg State.ports (s.applyCopy_frame outcome) :)
    refine ⟨_, exec_orderCopy_goesOn hheld hr ho hstop hmore, quiet_settle ?_, State.raiseAll_executor .., fun m => ?_,
      fun q => ?_, ?_⟩
    · exact (State.raiseAll_ports ..).trans hports
    · exact (State.order_raiseAll ..).trans (State.order_reported_eq s r o m)
    · exact State.raiseAll_notices_get _ _ _ (State.raiseAll_points ..) (State.raiseAll_orders ..) q
    · rw [State.raiseAll_eq]
      rfl

end Sys2Proof.Machine

/-! PROOFS. The converter scanner: what the ports keep within an event and after it, whatever request is answered; the scanner's
record through triggers, passes and requests, and from both its invariant; then SCAN_DEFINE in parts. -/

namespace Sys2Proof.Machine

/-! ### The length of response bodies (R194, R198) -/

/-- The lists of a body are as short as the request that it answers makes them (Tables 10.3-2 and 10.4-2). -/
def Body.bounded : Body → Prop
  | .read rs => rs.length ≤ 7
  | .write rs => rs.length ≤ 8
  | .list _ sts => sts.length ≤ 16
  | .notices ns => ns.length ≤ 4
  | _ => True

theorem length_noticeBytes (n : Notice) : (noticeBytes n).length = 12 := by
  obtain ⟨subject, causes, state, merged⟩ := n
  cases subject <;> cases state <;> rfl

theorem length_orderDefBytes (d : OrderDef) : (orderDefBytes d).length = 24 := rfl

theorem length_orderLiveBytes (o : Order) (position : Nat) (flag : RunFlag) : (orderLiveBytes o position flag).length = 15 := rfl

/-- A body has at most 56 bytes: READ and WRITE results fill it, and every other body is shorter (R194). -/
theorem length_bodyBytes {b : Body} (h : b.bounded) : (bodyBytes b).length ≤ 56 := by
  cases b with
  | read rs =>
    have hlength : (bodyBytes (.read rs)).length = 8 * rs.length := length_flatMap_fields readResultBytes 8 (fun _ => rfl) rs
    have hmost : rs.length ≤ 7 := h
    omega
  | write rs =>
    have hlength : (bodyBytes (.write rs)).length = 7 * rs.length := length_flatMap_fields writeResultBytes 7 (fun _ => rfl) rs
    have hmost : rs.length ≤ 8 := h
    omega
  | list n sts =>
    have hlength : (bodyBytes (.list n sts)).length = sts.length + 2 := by simp [bodyBytes, num1]
    have hmost : sts.length ≤ 16 := h
    omega
  | notices ns =>
    have hlength : (bodyBytes (.notices ns)).length = 12 * ns.length + 1 := by
      simp [bodyBytes, num1, length_flatMap_fields noticeBytes 12 length_noticeBytes]
    have hmost : ns.length ≤ 4 := h
    omega
  | order n record position flag =>
    cases record <;> simp [bodyBytes, num1, emptyOrderBytes, length_orderDefBytes, length_orderLiveBytes]
  | scanner record =>
    cases record <;> simp [bodyBytes, scannerBytes, triggerBytes, num1, num2, bytes4, bytes2]
  | output point safe invert level =>
    cases point <;> simp [bodyBytes, bindField, pointField, num2, bytes2]
  | _ => simp [bodyBytes, pointField, num1, num2, bytes4, bytes2]

/-! ### Windows (R176, R177, R200) -/

/-- The window's head is a response. -/
def headAnswered (window : List Entry) : Prop := ∃ e ∈ window.head?, e.isAnswered = true

/-- The oldest ACCEPTED entry gives place to another with its SEQ: the one form of an answer and of an assembled request. -/
def replaceOldest (f : Byte → Entry) : List Entry → List Entry
  | [] => []
  | .accepted seq _ :: rest => f seq :: rest
  | .answered seq st b :: rest => .answered seq st b :: replaceOldest f rest

section
variable {window : List Entry} {r : Request} {f : Byte → Entry}

theorem answerOldest_eq (st : Status) (b : Body) (window : List Entry) :
    answerOldest st b window = replaceOldest (fun seq => .answered seq st b) window := by
  induction window with
  | nil => rfl
  | cons e rest ih =>
    cases e with
    | accepted => rfl
    | answered => exact congrArg (List.cons _) ih

theorem presentAs_eq (r : Request) (window : List Entry) :
    presentAs r window = replaceOldest (fun seq => .accepted seq r) window := by
  induction window with
  | nil => rfl
  | cons e rest ih =>
    cases e with
    | accepted => rfl
    | answered => exact congrArg (List.cons _) ih

theorem length_replaceOldest (f : Byte → Entry) (window : List Entry) : (replaceOldest f window).length = window.length := by
  induction window with
  | nil => rfl
  | cons e rest ih =>
    cases e with
    | accepted => rfl
    | answered => exact congrArg Nat.succ ih

theorem mem_replaceOldest {e : Entry} (he : e ∈ replaceOldest f window) : e ∈ window ∨ ∃ seq, e = f seq := by
  induction window with
  | nil => cases he
  | cons x rest ih =>
    cases x with
    | accepted seq =>
      rcases List.mem_cons.1 he with rfl | he
      · exact .inr ⟨seq, rfl⟩
      · exact .inl (List.mem_cons_of_mem _ he)
    | answered =>
      rcases List.mem_cons.1 he with rfl | he
      · exact .inl List.mem_cons_self
      · exact (ih he).imp_left (List.mem_cons_of_mem _)

/-- A response at the head stays there. -/
theorem headAnswered_replaceOldest (h : headAnswered window) : headAnswered (replaceOldest f window) := by
  obtain ⟨e, he, hans⟩ := h
  cases window with
  | nil => cases he
  | cons x rest =>
    obtain rfl : x = e := Option.some.inj he
    cases x with
    | accepted => cases hans
    | answered => exact ⟨_, rfl, rfl⟩

/-- The presented request stands in the window (R177). -/
theorem mem_of_oldestAccepted (h : oldestAccepted window = some r) : ∃ seq, .accepted seq r ∈ window := by
  obtain ⟨e, he, hr⟩ := List.exists_of_findSome?_eq_some h
  cases e with
  | accepted seq r' =>
    cases hr
    exact ⟨seq, he⟩
  | answered => cases hr

/-- The own entry that a port's reset keeps is an answer without a body (R188). -/
theorem ownEntry_cases (window : List Entry) : ownEntry window = [] ∨ ∃ seq, ownEntry window = [.answered seq .ok .empty] := by
  induction window with
  | nil => exact .inl rfl
  | cons e rest ih =>
    cases e with
    | accepted seq => exact .inr ⟨seq, rfl⟩
    | answered => exact ih

end

theorem Entry.fits_answered {b : Body} (h : b.bounded) (seq : Byte) (st : Status) : (Entry.answered seq st b).fits :=
  Nat.add_le_add_right (length_bodyBytes h) 8

/-! ### What a port keeps within an event (R174, R176, R179, R194, R200) -/

/-- An exchange under way has a frame of 8 to 64 bytes, and carries a response only while the head of the window is one. -/
def Exchange.soundFor (x : Exchange) (window : List Entry) : Prop :=
  8 ≤ x.frame.length ∧ x.frame.length ≤ Config.exchangeBytes ∧ (x.carries = true → headAnswered window)

/-- A sound port, but for its attention line, which follows at the end of the event (R182). -/
structure PortState.kept (ps : PortState) : Prop where
  places : ps.window.length ≤ Config.windowSize
  fits : ∀ e ∈ ps.window, e.fits
  staged : ps.staged.length ≤ Config.scanListSize
  exchange : ∀ x ∈ ps.exchange, x.soundFor ps.window

/-- Every port is kept. -/
def State.PortsKept (s : State) : Prop := ∀ p, (s.ports.get p).kept

theorem PortState.sound_iff (ps : PortState) (u : NoticeUnit) : ps.sound u ↔ ps.kept ∧ ps.attn = attnLevel ps u :=
  ⟨fun ⟨hplaces, hfits, hstaged, hattn, hx⟩ => ⟨⟨hplaces, hfits, hstaged, hx⟩, hattn⟩,
    fun ⟨⟨hplaces, hfits, hstaged, hx⟩, hattn⟩ => ⟨hplaces, hfits, hstaged, hattn, hx⟩⟩

section
variable {ps : PortState} {b : Body}

/-- A window that grows no longer, whose entries fit, and whose head stays a response if it is one. -/
theorem PortState.kept.ofWindow (hps : ps.kept) {window : List Entry} (hlength : window.length ≤ ps.window.length)
    (hfits : ∀ e ∈ window, e.fits) (hhead : headAnswered ps.window → headAnswered window) :
    PortState.kept { ps with window := window } where
  places := Nat.le_trans hlength hps.places
  fits := hfits
  staged := hps.staged
  exchange x hx := (hps.exchange x hx).imp_right (And.imp_right fun h hc => hhead (h hc))

theorem PortState.kept.replaced (hps : ps.kept) {f : Byte → Entry} (hf : ∀ seq, (f seq).fits) :
    PortState.kept { ps with window := replaceOldest f ps.window } := by
  refine hps.ofWindow (Nat.le_of_eq (length_replaceOldest ..)) (fun e he => ?_) headAnswered_replaceOldest
  rcases mem_replaceOldest he with he | ⟨seq, rfl⟩
  · exact hps.fits e he
  · exact hf seq

theorem PortState.kept.answer (hps : ps.kept) (hb : b.bounded) (st : Status) :
    PortState.kept { ps with window := answerOldest st b ps.window } := by
  rw [answerOldest_eq]
  exact hps.replaced fun seq => Entry.fits_answered hb seq st

theorem PortState.kept.present (hps : ps.kept) {r : Request} (hr : r.wf = true) :
    PortState.kept { ps with window := presentAs r ps.window } := by
  rw [presentAs_eq]
  exact hps.replaced fun _ => hr

/-- Scan list entries are staged, or dropped (R200). -/
theorem PortState.kept.stage (hps : ps.kept) {entries : List ScanEntryArgs} (h : entries.length ≤ Config.scanListSize) :
    PortState.kept { ps with staged := entries } :=
  ⟨hps.places, hps.fits, h, hps.exchange⟩

/-- The enables of the attention line are not read (R183). -/
theorem PortState.kept.enable (hps : ps.kept) (response notice : Bool) :
    PortState.kept { ps with responseAttn := response, noticeAttn := notice } :=
  ⟨hps.places, hps.fits, hps.staged, hps.exchange⟩

/-- A table reset answers every ACCEPTED entry in place (R190). -/
theorem PortState.kept.afterReset (hps : ps.kept) : ps.afterReset.kept := by
  refine hps.ofWindow (Nat.le_of_eq (List.length_map _)) (fun e he => ?_) fun ⟨e, he, hans⟩ => ?_
  · obtain ⟨x, hx, rfl⟩ := List.mem_map.1 he
    cases x with
    | accepted seq => exact Entry.fits_answered (b := .empty) trivial seq _
    | answered => exact hps.fits _ hx
  · refine ⟨e.afterReset, ?_, ?_⟩
    · rw [List.head?_map, Option.mem_def.1 he]
      rfl
    · cases e <;> rfl

/-- A port reset leaves an own entry or none, and an exchange that carries no response (R179, R188, R189). -/
theorem PortState.kept.afterPortReset (hps : ps.kept) {window : List Entry}
    (hw : window = [] ∨ ∃ seq, window = [.answered seq .ok .empty]) : (ps.afterPortReset window).kept where
  places := by
    show window.length ≤ 4
    rcases hw with rfl | ⟨seq, rfl⟩ <;> simp
  fits := by
    show ∀ e ∈ window, e.fits
    rcases hw with rfl | ⟨seq, rfl⟩
    · exact fun e he => absurd he List.not_mem_nil
    · intro e he
      obtain rfl := List.mem_singleton.1 he
      exact Entry.fits_answered (b := .empty) trivial seq _
  staged := Nat.zero_le _
  exchange := by
    intro x hx
    obtain ⟨y, hy, rfl⟩ := Option.map_eq_some_iff.1 hx
    obtain ⟨hleast, hmost, -⟩ := hps.exchange y hy
    exact ⟨hleast, hmost, nofun⟩

end

/-! ### Exchanges (R170 to R181, R194) -/

theorem length_outboundFrame (s : State) (p : Port) (seq : Byte) (st : Status) (b : Body) :
    (outboundFrame s p seq st b).length = (bodyBytes b).length + 8 := by
  simp [outboundFrame, portStatusBytes, num1, bytes2]

/-- The frame fixed at select falling has 8 to 64 bytes, and it carries the head of the window only if that is a response. -/
theorem PortState.kept.selectFrame {s : State} {p : Port} (hps : (s.ports.get p).kept) :
    8 ≤ (frameAtSelect s p).1.length ∧ (frameAtSelect s p).1.length ≤ Config.exchangeBytes ∧
      ((frameAtSelect s p).2 = true → headAnswered (s.ports.get p).window) := by
  unfold frameAtSelect
  split
  · rename_i seq st b rest hwindow
    have hfits : (Entry.answered seq st b).fits := hps.fits _ (by rw [hwindow]; exact List.mem_cons_self)
    rw [length_outboundFrame]
    exact ⟨Nat.le_add_left .., hfits, fun _ => ⟨_, by rw [hwindow]; rfl, rfl⟩⟩
  · rw [length_outboundFrame]
    exact ⟨Nat.le_add_left .., by decide, nofun⟩

/-- An entry made of an inbound frame fits: its request is well formed, or it is an answer without a body (R174). -/
theorem State.fits_examine (s : State) (p : Port) (bytes : List Byte) : (s.examine p bytes).fits := by
  have hempty : Body.empty.bounded := trivial
  unfold State.examine
  dsimp only
  split
  · exact Entry.fits_answered hempty ..
  · split
    · exact Entry.fits_answered hempty ..
    · split
      · exact Entry.fits_answered hempty ..
      · split
        · exact Entry.fits_answered hempty ..
        · split
          · exact Entry.fits_answered hempty ..
          · exact parseBody_wf ‹_›

/-- Delivery ends the exchange and removes the response that it carried (R179). -/
theorem PortState.kept.deliver {ps : PortState} (hps : ps.kept) (x : Exchange) : (ps.deliver x).kept where
  places := by
    have hplaces := hps.places
    unfold PortState.deliver
    dsimp only
    split
    · rw [List.length_tail]
      omega
    · exact hplaces
  fits := by
    unfold PortState.deliver
    dsimp only
    split
    · exact fun e he => hps.fits e (List.mem_of_mem_tail he)
    · exact hps.fits
  staged := hps.staged
  exchange := nofun

/-- An inbound frame takes a place of the window when there is one (R173, R176). -/
theorem PortState.kept.receive {ps : PortState} (hps : ps.kept) (hended : ps.exchange = none) (s : State) (p : Port)
    (bytes : List Byte) : (s.receive p ps bytes).kept := by
  have hnone : ∀ window : List Entry, ∀ x ∈ ps.exchange, x.soundFor window := fun _ x hx => by
    rw [hended] at hx
    cases hx
  unfold State.receive
  split
  · exact hps
  · split
    · exact ⟨hps.places, hps.fits, hps.staged, hps.exchange⟩
    · refine ⟨?_, fun e he => ?_, hps.staged, hnone _⟩
      · simp only [List.length_append, List.length_singleton]
        omega
      · rcases List.mem_append.1 he with he | he
        · exact hps.fits e he
        · rw [List.mem_singleton.1 he]
          exact s.fits_examine p bytes

end Sys2Proof.Machine

namespace Sys2Proof.Machine

/-! ### The ports after each operation -/

section
variable {s t : State}

theorem State.PortsSound.kept (hs : s.PortsSound) : s.PortsKept := fun p => ((PortState.sound_iff _ _).1 (hs p)).1

theorem State.PortsKept.same (hs : s.PortsKept) (h : t.ports = s.ports) : t.PortsKept := fun p => by
  rw [h]
  exact hs p

/-- The end of an event gives every attention line the level of R182. -/
theorem State.PortsKept.settled (hs : s.PortsKept) : s.settle.PortsSound := by
  intro p
  have hport : s.settle.ports.get p = { s.ports.get p with attn := attnLevel (s.ports.get p) (s.notices.get p) } :=
    PerPort.get_map ..
  obtain ⟨hplaces, hfits, hstaged, hx⟩ := hs p
  rw [PortState.sound_iff, hport]
  exact ⟨⟨hplaces, hfits, hstaged, hx⟩, rfl⟩

theorem State.PortsKept.setPort (hs : s.PortsKept) (p : Port) {x : PortState} (hx : x.kept) : (s.setPort p x).PortsKept := by
  intro q
  rw [State.setPort_ports, PerPort.get_set]
  split
  · exact hx
  · exact hs q

theorem State.PortsKept.answer (hs : s.PortsKept) (p : Port) (st : Status) {b : Body} (hb : b.bounded) :
    (s.answer p st b).PortsKept :=
  hs.setPort p ((hs p).answer hb st)

/-- An effect that leaves the ports alone, and the end of its event. -/
theorem State.PortsKept.quiet (hs : s.PortsKept) (h : t.ports = s.ports := by rfl) : t.settle.PortsSound := (hs.same h).settled

/-- An effect that leaves the ports alone, answered, and the end of its event. -/
theorem State.PortsKept.replied (hs : s.PortsKept) {p : Port} {st : Status} {b : Body} (h : t.ports = s.ports := by rfl)
    (hb : b.bounded := by trivial) : (t.answer p st b).settle.PortsSound :=
  ((hs.same h).answer p st hb).settled

/-- The request that is due stands in a window, so it is well formed (R174). -/
theorem State.PortsKept.wf_of_due (hs : s.PortsKept) {p : Port} {r : Request} (h : s.Due p r) : r.wf = true := by
  obtain ⟨seq, hmem⟩ := mem_of_oldestAccepted h.2
  exact (hs p).fits _ hmem

theorem State.PortsKept.tableReset (hs : s.PortsKept) : s.tableReset.PortsKept := fun p => by
  rw [State.ports_tableReset]
  exact (hs p).afterReset

theorem State.PortsKept.portReset (hs : s.PortsKept) (p : Port) {window : List Entry}
    (hw : window = [] ∨ ∃ seq, window = [.answered seq .ok .empty]) : (s.portReset p window).PortsKept := by
  have hset : (s.setPort p ((s.ports.get p).afterPortReset window)).PortsKept := hs.setPort p ((hs p).afterPortReset hw)
  refine hset.same ?_
  unfold State.portReset
  rw [State.raiseAll_ports]
  rfl

theorem State.PortsKept.resetOwnPort (hs : s.PortsKept) (p : Port) : (s.resetOwnPort p).PortsKept :=
  hs.portReset p (ownEntry_cases _)

/-- An exchange begins with the frame fixed at select falling (R178). -/
theorem State.PortsKept.beginExchange (hs : s.PortsKept) (p : Port) (sck : Level) : (s.beginExchange p sck).PortsKept := by
  have hframe := (hs p).selectFrame
  unfold State.beginExchange
  generalize frameAtSelect s p = x at hframe ⊢
  refine hs.setPort p ⟨(hs p).places, (hs p).fits, (hs p).staged, ?_⟩
  rintro _ ⟨⟩
  exact hframe

/-- The end of an exchange removes the exchange, and delivers and takes an entry if it is complete (R171, R173). -/
theorem State.PortsKept.endExchange (hs : s.PortsKept) (p : Port) (x : Exchange) (bytes : List Byte) (spareBits : Fin 8) :
    (s.endExchange p x bytes spareBits).PortsKept := by
  unfold State.endExchange
  dsimp only
  split
  · exact hs.setPort p ⟨(hs p).places, (hs p).fits, (hs p).staged, nofun⟩
  · exact hs.setPort p (((hs p).deliver x).receive rfl s p bytes)

end

/-! ### The operations of commands leave the ports alone -/

section
variable (s : State)

theorem State.ports_replaceSlot (i : PointIx) (x : Option Point) : (s.replaceSlot i x).ports = s.ports := by
  rw [State.replaceSlot_eq]

theorem State.ports_takeClaim (p : Port) (args : ClaimArgs) (mode : ClaimMode) (ixs : List PointIx) :
    (s.takeClaim p args mode ixs).1.ports = s.ports :=
  (congrArg State.ports (s.takeClaim_frame p args mode ixs) :)

theorem State.ports_releaseAll (p : Port) : (s.releaseAll p).ports = s.ports := by
  unfold State.releaseAll
  rw [State.raiseAll_ports]
  rfl

theorem State.ports_ageTable : s.ageTable.ports = s.ports := by
  unfold State.ageTable
  rw [State.raiseAll_ports]
  rfl

theorem State.ports_arbiterTick : s.arbiterTick.ports = s.ports := by
  unfold State.arbiterTick
  rw [State.raiseAll_ports]
  rfl

theorem State.ports_timerTick (n : Fin 4) : (s.timerTick n).ports = s.ports := by
  unfold State.timerTick
  dsimp only
  split
  · exact State.deliver_ports ..
  · rfl

theorem State.ports_takeEdge (n : Fin 8) (level : Level) : (s.takeEdge n level).ports = s.ports := by
  unfold State.takeEdge
  dsimp only
  split
  · exact State.deliver_ports ..
  · rfl

theorem State.ports_disarmOrder (n : OrderIx) : (s.disarmOrder n).ports = s.ports := by
  unfold State.disarmOrder
  rw [State.raiseAll_ports]
  rfl

theorem State.ports_disarmScanner (sc : Scanner) : (s.disarmScanner sc).ports = s.ports := by
  unfold State.disarmScanner
  rw [State.raiseAll_ports]
  rfl

/-- A conversion's write and what follows it leave the ports alone (R149, R150). -/
theorem State.ports_converted (e : ScanEntry) (raw : BitVec 12) (a b : Nat) (rs : List Raise) :
    (((s.scanWrite e raw).1.nextConversion a b).raiseAll rs).ports = s.ports := by
  have hnext := congrArg State.ports (State.nextConversion_frame (s.scanWrite e raw).1 a b)
  have hwrite := congrArg State.ports (s.scanWrite_frame e raw)
  rw [State.raiseAll_ports]
  exact Eq.trans hnext hwrite

end

/-! ### The lengths of answers that carry lists (R15, R22, R42, R43, R88) -/

theorem length_of_allSome {α β : Type} {f : α → Option β} {xs : List α} {ys : List β} (h : allSome f xs = some ys) :
    ys.length = xs.length := ((allSome_eq_some f xs ys).1 h).1.symm

theorem State.length_takeWrites (s : State) (p : Port) (es : List WriteEntry) : (s.takeWrites p es).2.length = es.length := by
  induction es generalizing s with
  | nil => rfl
  | cons e es ih => exact congrArg Nat.succ (ih (s.takeWrite p e).1)

theorem State.length_takeList (effect : State → PointIx → State) (p : Port) (s : State) (ixs : List PointIx) :
    (State.takeList effect p s ixs).2.length = ixs.length := by
  induction ixs generalizing s with
  | nil => rfl
  | cons i ixs ih =>
    unfold State.takeList
    split
    · exact congrArg Nat.succ (ih (effect s i))
    · exact congrArg Nat.succ (ih s)

/-- A selection by list has as many points as the request names (R42, R43). -/
theorem length_of_selection? {args : ListArgs} {ixs : List PointIx} (h : selection? args = some (.list ixs)) :
    ixs.length = args.points.length := by
  unfold selection? at h
  split at h
  · rename_i heq
    split at h
    · cases h
    · cases h
      exact length_of_allSome heq
  · split at h <;> cases h
  · cases h

/-- A CLAIM is answered without a body or with one point and its holder (R37 to R41). -/
theorem State.bounded_takeClaim (s : State) (p : Port) (args : ClaimArgs) (mode : ClaimMode) (ixs : List PointIx) :
    (s.takeClaim p args mode ixs).2.2.bounded := by
  unfold State.takeClaim
  split
  · trivial
  · split
    · split
      · unfold State.placeWait
        split
        · dsimp only
          split
          · trivial
          · split
            · trivial
            · split <;> trivial
        · trivial
      · trivial
    · split <;> trivial

/-- An ORDER_FIRE is answered with the order's counts, or without a body (R121). -/
theorem State.bounded_fireBody (s : State) (n : OrderIx) : (s.fireBody n).bounded := by
  unfold State.fireBody
  split <;> trivial

/-- A list that is not refused has at most 16 entries, and at least those of the part (R200). -/
theorem stageEntries_length {staged entries : List ScanEntryArgs} {args : ScanPartArgs}
    (h : stageEntries staged args = some entries) : args.entries.length ≤ entries.length ∧ entries.length ≤ Config.scanListSize := by
  unfold stageEntries at h
  dsimp only at h
  generalize (if args.first = 0 then [] else staged) = before at h
  split at h
  · rename_i hfits
    cases h
    rw [List.length_append]
    omega
  · cases h

end Sys2Proof.Machine

namespace Sys2Proof.Machine

/-! ### The ports after every command -/

section
variable {s t : State}

/-- A request's event keeps the ports sound when its effect does for a well-formed request. -/
theorem State.PortsSound.ofRequest {p : Port} {r : Request} {f : State → State} (hs : s.PortsSound)
    (h : onRequest p r s f = .next t) (hf : s.PortsKept → r.wf = true → (f s).settle.PortsSound) : t.PortsSound :=
  onRequest_keeps hs (fun hdue => hf hs.kept (hs.kept.wf_of_due hdue)) h

/-- An event keeps the ports sound when its effect keeps them. -/
theorem State.PortsSound.ofEvent {due : Bool} {f : State → State} (hs : s.PortsSound) (h : event due s f = .next t)
    (hf : s.PortsKept → (f s).PortsKept) : t.PortsSound :=
  event_keeps hs (fun _ _ => (hf hs.kept).settled) h

/-- An event that leaves the ports alone keeps them sound. -/
theorem State.PortsSound.ofQuiet {due : Bool} {f : State → State} (hs : s.PortsSound) (h : event due s f = .next t)
    (hf : (f s).ports = s.ports) : t.PortsSound :=
  hs.ofEvent h fun hk => hk.same hf

/-- A port's sound state reads the ports and the notices alone. -/
theorem State.PortsSound.same (hs : s.PortsSound) (hp : t.ports = s.ports) (hn : t.notices = s.notices) : t.PortsSound :=
  fun p => by
    rw [hp, hn]
    exact hs p

end

/-- Every command keeps the ports sound: it answers an entry with a body that fits, or it is one of the ports' own. -/
theorem portsSound_exec (c : Instr) (s t : State) (hs : s.PortsSound) (h : exec c s = .next t) : t.PortsSound := by
  cases c with
  | coldReset =>
    cases h
    intro p
    have hport : ({ State.reset with pending := s.pending } : State).ports.get p = .reset := State.ports_reset p
    have hunit : ({ State.reset with pending := s.pending } : State).notices.get p = .reset := State.notices_reset p
    rw [hport, hunit]
    exact PortState.sound_reset
  | coldResetEnd pins =>
    simp only [exec, execColdResetEnd] at h
    split at h
    · cases h
      exact hs.kept.quiet
    · cases h
      exact hs
  | selectFalling p sck =>
    unfold exec execSelectFalling at h
    exact hs.ofEvent h fun hk => hk.beginExchange p sck
  | exchangeEnd p bytes spareBits =>
    unfold exec execExchangeEnd at h
    refine hs.ofEvent h fun hk => ?_
    split
    · exact hk
    · exact hk.endExchange p _ bytes spareBits
  | tick => exact hs.ofQuiet h rfl
  | tickAgeing => exact hs.ofQuiet h s.ports_ageTable
  | pointStale => exact hs.ofQuiet h s.ports_ageTable
  | claimArbiterTick => exact hs.ofQuiet h s.ports_arbiterTick
  | leaseLapse => exact hs.ofQuiet h s.ports_arbiterTick
  | waitExpiry => exact hs.ofQuiet h s.ports_arbiterTick
  | timerTick n =>
    unfold exec execTimerTick at h
    exact hs.ofQuiet h (s.ports_timerTick n)
  | timerExpiry n =>
    unfold exec execTimerExpiry at h
    exact hs.ofQuiet h (s.ports_timerTick n)
  | lineEdge n level =>
    unfold exec execLineEdge at h
    exact hs.ofQuiet h (s.ports_takeEdge n level)
  | orderCopy =>
    unfold exec execOrderCopy at h
    refine hs.ofQuiet h ?_
    split
    · rfl
    · split
      · exact State.startRun_ports _
      · exact (congrArg State.ports (s.takeCopy_frame ..) :)
  | conversionCompletion raw =>
    unfold exec execConversionCompletion at h
    refine hs.ofQuiet h ?_
    split
    · rfl
    · split
      · rfl
      · exact s.ports_converted ..
  | read p points =>
    unfold exec execRead at h
    refine hs.ofRequest h fun hk hwf => ?_
    split
    · exact hk.replied
    · rename_i ixs hixs
      have hlength := length_of_allSome hixs
      simp only [Request.wf, within, Bool.and_eq_true, decide_eq_true_eq] at hwf
      exact hk.replied rfl (show (ixs.map s.readResult).length ≤ 7 by rw [List.length_map]; omega)
  | write p entries =>
    unfold exec execWrite at h
    refine hs.ofRequest h fun hk hwf => ?_
    split
    · exact hk.replied
    · rename_i es hes
      have hlength := length_of_allSome hes
      simp only [Request.wf, within, Bool.and_eq_true, decide_eq_true_eq] at hwf
      refine hk.replied (s.takeWrites_ports p es) (show (s.takeWrites p es).2.length ≤ 8 from ?_)
      rw [State.length_takeWrites]
      omega
  | define p args =>
    unfold exec execDefine at h
    refine hs.ofRequest h fun hk _ => ?_
    split
    · split
      · exact hk.replied
      · exact hk.replied (s.ports_replaceSlot ..)
    · exact hk.replied
  | undefine p point =>
    unfold exec execUndefine at h
    refine hs.ofRequest h fun hk _ => ?_
    split
    · exact hk.replied
    · split
      · exact hk.replied
      · split
        · exact hk.replied
        · exact hk.replied (s.ports_replaceSlot ..)
  | tableReset p =>
    unfold exec execTableReset at h
    exact hs.ofRequest h fun hk _ => (hk.answer p .ok (b := .empty) trivial).tableReset.settled
  | claim p args =>
    unfold exec execClaim at h
    refine hs.ofRequest h fun hk _ => ?_
    split
    · split
      · exact hk.replied
      · exact hk.replied (s.ports_takeClaim ..) (s.bounded_takeClaim ..)
    · exact hk.replied
  | release p args =>
    unfold exec execRelease at h
    refine hs.ofRequest h fun hk hwf => ?_
    split
    · exact hk.replied
    · rename_i ixs hixs
      have hlength := length_of_selection? hixs
      simp only [Request.wf, within, Bool.and_eq_true, decide_eq_true_eq] at hwf
      refine hk.replied ?_ (show (State.takeList _ p s ixs).2.length ≤ 16 from ?_)
      · exact (congrArg State.ports (releaseList_frame p s ixs) :)
      · rw [State.length_takeList]
        omega
    · exact hk.replied (s.ports_releaseAll p)
  | renew p args =>
    unfold exec execRenew at h
    refine hs.ofRequest h fun hk hwf => ?_
    split
    · exact hk.replied
    · rename_i ixs hixs
      have hlength := length_of_selection? hixs
      simp only [Request.wf, within, Bool.and_eq_true, decide_eq_true_eq] at hwf
      refine hk.replied ?_ (show (State.takeList _ p s ixs).2.length ≤ 16 from ?_)
      · exact (congrArg State.ports (renewList_frame p s ixs) :)
      · rw [State.length_takeList]
        omega
    · exact hk.replied
  | batchCommit p release =>
    unfold exec execBatchCommit at h
    refine hs.ofRequest h fun hk _ => ?_
    split
    · exact hk.replied
    · split
      · exact hk.replied
      · exact hk.replied (s.commit_ports ..)
  | fetch p count =>
    unfold exec execFetch at h
    refine hs.ofRequest h fun hk _ => ?_
    dsimp only
    split
    · exact hk.replied
    · rename_i hcount
      simp only [Bool.or_eq_true, decide_eq_true_eq, not_or] at hcount
      refine hk.replied rfl (show (List.take count.toNat _).length ≤ 4 from ?_)
      rw [List.length_take]
      omega
  | orderArm p order =>
    unfold exec execOrderArm at h
    refine hs.ofRequest h fun hk _ => ?_
    split
    · exact hk.replied
    · split
      · exact hk.replied
      · split
        · exact hk.replied
        · split
          · exact hk.replied
          · split
            · exact hk.replied
            · exact hk.replied (State.grantInternal_ports ..)
  | orderDisarm p order =>
    unfold exec execOrderDisarm at h
    refine hs.ofRequest h fun hk _ => ?_
    split
    · exact hk.replied
    · split
      · exact hk.replied
      · split
        · exact hk.replied (s.ports_disarmOrder _)
        · exact hk.replied
        · exact hk.replied
  | orderFire p order =>
    unfold exec execOrderFire at h
    refine hs.ofRequest h fun hk _ => ?_
    split
    · exact hk.replied
    · split
      · exact hk.replied (State.startRun_ports _) (State.bounded_fireBody ..)
      · exact hk.replied
  | scanDefinePart p args =>
    unfold exec execScanDefinePart at h
    refine hs.ofRequest h fun hk hwf => ?_
    dsimp only
    split
    · exact hk.replied
    · rename_i entries hstage
      obtain ⟨hleast, hmost⟩ := stageEntries_length hstage
      simp only [Request.wf, within, Bool.and_eq_true, decide_eq_true_eq] at hwf
      split
      · have hwhole : (Request.scanDefine ⟨args.mode, args.trigger, entries⟩).wf = true := by
          simp only [Request.wf, within, Bool.and_eq_true, decide_eq_true_eq]
          omega
        exact (hk.setPort p (((hk p).present hwhole).stage (entries := []) (Nat.zero_le _))).settled
      · exact (hk.setPort p ((hk p).stage hmost)).replied
  | scanArm p =>
    unfold exec execScanArm at h
    refine hs.ofRequest h fun hk _ => ?_
    split
    · exact hk.replied
    · split
      · exact hk.replied
      · dsimp only
        split
        · exact hk.replied
        · exact hk.replied (State.grantInternal_ports ..)
  | scanDisarm p =>
    unfold exec execScanDisarm at h
    refine hs.ofRequest h fun hk _ => ?_
    split
    · exact hk.replied
    · split
      · exact hk.replied (s.ports_disarmScanner _)
      · exact hk.replied
  | portReset p =>
    unfold exec execPortReset at h
    exact hs.ofRequest h fun hk _ => (hk.resetOwnPort p).settled
  | forcePortReset p target =>
    unfold exec execForcePortReset at h
    refine hs.ofRequest h fun hk _ => ?_
    split
    · exact hk.replied
    · split
      · exact (hk.resetOwnPort p).settled
      · exact (hk.portReset _ (.inl rfl)).replied
  | attnSet p response notice =>
    unfold exec execAttnSet at h
    refine hs.ofRequest h fun hk _ => ?_
    split
    · exact (hk.setPort p ((hk p).enable _ _)).replied
    · exact hk.replied
  | withdraw | batchOpen | batchPut | batchDiscard | subscribe | unsubscribe | orderDefine | orderQuery | orderClear
  | scanDefine | scanStart | scanStop | scanQuery | tickSet | timerSet | timerStop | lineSet | outputBind | configGrant
  | configRevoke | status =>
    simp only [exec, execWithdraw, execBatchOpen, execBatchPut, execBatchDiscard, execSubscribe, execUnsubscribe,
      execOrderDefine, execOrderQuery, execOrderClear, execScanDefine, execScanStart, execScanStop, execScanQuery, execTickSet,
      execTimerSet, execTimerStop, execLineSet, execOutputBind, execConfigGrant, execConfigRevoke, execStatus] at h
    refine hs.ofRequest h fun hk _ => ?_
    repeat' split
    all_goals exact hk.replied

/-- Every step keeps the ports sound. -/
theorem portsSound_keptByStep : KeptByStep State.PortsSound := keptByStep_of (fun _ _ hs => hs.same rfl rfl) portsSound_exec

end Sys2Proof.Machine

namespace Sys2Proof.Machine

/-! ### The scanner's record (R140 to R155) -/

section
variable {sc : Scanner}

/-- A scanner that is back at its first entry is sound: outside a conversion it then holds no pass (R140, R145). -/
theorem Scanner.sound.restart (h : sc.sound) {phase : ScanPhase} {pendingPass : Bool} {passCount : BitVec 32} {missed : Nat}
    (hpass : phase ≠ .converting → pendingPass = false) (hmissed : missed ≤ Config.countMax) :
    Scanner.sound { sc with
      phase := phase, current := 0, pendingPass := pendingPass, passCount := passCount, missed := missed } := by
  obtain ⟨hleast, hmost, hnodup, -, -, hend, hpoint, -⟩ := h
  exact ⟨hleast, hmost, hnodup, hleast, fun hphase => ⟨rfl, hpass hphase⟩, hend, hpoint, hmissed⟩

theorem Scanner.sound.missed_le (h : sc.sound) : sc.missed ≤ Config.countMax := by
  obtain ⟨-, -, -, -, -, -, -, hmissed⟩ := h
  exact hmissed

theorem Scanner.sound.trigger_ne_point (h : sc.sound) : ∀ i, sc.trigger ≠ .point i := by
  obtain ⟨-, -, -, -, -, -, hpoint, -⟩ := h
  exact hpoint

/-- Outside a conversion the current entry is the first, and no pass is held. -/
theorem Scanner.sound.idle (h : sc.sound) (hphase : sc.phase ≠ .converting) : sc.current = 0 ∧ sc.pendingPass = false := by
  obtain ⟨-, -, -, -, hidle, -, -, -⟩ := h
  exact hidle hphase

/-- A trigger starts a pass, is held, is counted, or is not acted on (R145). -/
theorem Scanner.sound.accept (h : sc.sound) : sc.accept.sound := by
  obtain ⟨harmed, hheld, hmissed, hcontinuous, hdefined⟩ := sc.accept_cases
  have hle := h.missed_le
  cases hphase : sc.phase with
  | defined => rwa [hdefined hphase]
  | armed =>
    rw [harmed hphase]
    exact h.restart (fun hne => absurd rfl hne) hle
  | converting =>
    obtain ⟨hleast, hmost, hnodup, hcurrent, -, hend, hpoint, -⟩ := h
    cases hmode : sc.mode with
    | continuous =>
      rw [hcontinuous hphase hmode]
      exact ⟨hleast, hmost, hnodup, hcurrent, fun hne => absurd hphase hne, hend, hpoint, hle⟩
    | single =>
      cases hpass : sc.pendingPass with
      | false =>
        rw [hheld hphase hmode hpass]
        exact ⟨hleast, hmost, hnodup, hcurrent, fun hne => absurd hphase hne, hend, hpoint, hle⟩
      | true =>
        rw [hmissed hphase hmode hpass]
        exact ⟨hleast, hmost, hnodup, hcurrent, fun hne => absurd hphase hne, hend, hpoint, countUp_le hle⟩

/-- The next entry of a pass is converted (R149). -/
theorem Scanner.sound.convert (h : sc.sound) (hphase : sc.phase = .converting) {k : Nat} (hk : k < sc.entries.length) :
    (sc.convert k).sound := by
  obtain ⟨hleast, hmost, hnodup, -, -, hend, hpoint, hmissed⟩ := h
  exact ⟨hleast, hmost, hnodup, hk, fun hne => absurd hphase hne, hend, hpoint, hmissed⟩

/-- A pass that ends goes on at entry 0, or leaves the scanner ARMED with no pass held (R150). -/
theorem Scanner.sound.endPass (h : sc.sound) (hphase : sc.phase = .converting) : sc.countPass.afterPass.sound := by
  rw [Scanner.afterPass_countPass]
  split
  · exact h.restart (fun hne => absurd hphase hne) h.missed_le
  · exact h.restart (fun _ => rfl) h.missed_le
  · exact h.restart (fun _ => ‹sc.pendingPass = false›) h.missed_le

/-- A scanner stopped, disarmed or reset holds no pass (R151, R152, R155). -/
theorem Scanner.sound.abandon (h : sc.sound) (phase : ScanPhase) : (sc.abandon phase).sound :=
  h.restart (fun _ => rfl) h.missed_le

/-- A scanner that becomes ARMED holds no pass and has missed no trigger (R144). -/
theorem Scanner.sound.arm (h : sc.sound) : sc.arm.sound := h.restart (fun _ => rfl) (Nat.zero_le _)

end

/-- The trigger sources that the scanner may select (R142). -/
theorem scanTrigger?_eq_some (x : TriggerArgs) (t : Trigger) :
    scanTrigger? x = some t ↔ CarriesTrigger x t ∧ t ≠ .scanEnd ∧ ∀ i, t ≠ .point i := by
  rw [← trigger?_eq_some]
  unfold scanTrigger?
  split
  · rename_i h
    rw [h]
    exact ⟨nofun, fun ⟨ht, hne, _⟩ => absurd (Option.some.inj ht).symm hne⟩
  · rename_i i h
    rw [h]
    exact ⟨nofun, fun ⟨ht, _, hne⟩ => absurd (Option.some.inj ht).symm (hne i)⟩
  · rename_i hend hpoint
    refine ⟨fun h => ⟨h, ?_, ?_⟩, And.left⟩
    · rintro rfl
      exact hend h
    · rintro i rfl
      exact hpoint i h

/-- The record that a SCAN_DEFINE gives has each field as its reader gives it, and no destination twice (R142, R143). -/
theorem scannerOf?_eq_some (p : Port) (x : ScanDefineArgs) (sc : Scanner) : scannerOf? p x = some sc ↔
    sc.owner = p ∧ scanMode? x.mode = some sc.mode ∧ scanTrigger? x.trigger = some sc.trigger ∧
      allSome scanEntry? x.entries = some sc.entries ∧ (sc.entries.map ScanEntry.dest).Nodup ∧ sc.phase = .defined ∧
      sc.current = 0 ∧ sc.pendingPass = false ∧ sc.passCount = 0 ∧ sc.missed = 0 := by
  obtain ⟨owner, entries, mode, trigger, phase, current, pendingPass, passCount, missed⟩ := sc
  unfold scannerOf?
  constructor
  · intro h
    split at h
    · rename_i hmode htrigger hentries
      split at h
      · rename_i hnodup
        cases h
        exact ⟨rfl, hmode, htrigger, hentries, hnodup, rfl, rfl, rfl, rfl, rfl⟩
      · cases h
    · cases h
  · rintro ⟨rfl, hmode, htrigger, hentries, hnodup, rfl, rfl, rfl, rfl, rfl⟩
    simp only [hmode, htrigger, hentries]
    exact if_pos hnodup

/-- A SCAN_DEFINE of 1 to 16 entries that is accepted gives a sound record (R140, R142, R143). -/
theorem scannerOf?_sound {p : Port} {x : ScanDefineArgs} {sc : Scanner} (h : scannerOf? p x = some sc)
    (hwf : (Request.scanDefine x).wf = true) : sc.sound := by
  obtain ⟨-, -, htrigger, hentries, hnodup, -, hcurrent, hpass, -, hmissed⟩ := (scannerOf?_eq_some p x sc).1 h
  obtain ⟨-, hend, hpoint⟩ := (scanTrigger?_eq_some ..).1 htrigger
  have hlength := length_of_allSome hentries
  simp only [Request.wf, within, Bool.and_eq_true, decide_eq_true_eq] at hwf
  exact ⟨by omega, by omega, hnodup, by omega, fun _ => ⟨hcurrent, hpass⟩, hend, hpoint, by omega⟩

/-! ### The scanner after each operation -/

section
variable {s t : State}

theorem State.ScannerSound.same (hs : s.ScannerSound) (h : t.scanner = s.scanner) : t.ScannerSound := fun sc hsc =>
  hs sc (by rwa [h] at hsc)

theorem State.ScannerSound.ofMap {f : Scanner → Scanner} (hs : s.ScannerSound) (h : t.scanner = s.scanner.map f)
    (hf : ∀ sc ∈ s.scanner, sc.sound → (f sc).sound) : t.ScannerSound := by
  intro sc hsc
  rw [h] at hsc
  obtain ⟨sc', hsc', rfl⟩ := Option.map_eq_some_iff.1 hsc
  exact hf sc' hsc' (hs sc' hsc')

theorem State.scannerSound_of {sc : Scanner} (h : t.scanner = some sc) (hsc : sc.sound) : t.ScannerSound := fun x hx => by
  rw [h] at hx
  cases hx
  exact hsc

theorem State.ScannerSound.settled (hs : s.ScannerSound) : s.settle.ScannerSound := hs.same rfl

theorem State.ScannerSound.replied {p : Port} {st : Status} {b : Body} (hs : s.ScannerSound) :
    (s.answer p st b).settle.ScannerSound := hs.same rfl

theorem State.ScannerSound.raiseAll (hs : s.ScannerSound) (rs : List Raise) : (s.raiseAll rs).ScannerSound :=
  hs.same (s.raiseAll_scanner rs)

/-- A scanner that selects the source of a trigger takes it (R167). -/
theorem State.ScannerSound.deliver (hs : s.ScannerSound) (tr : Trigger) : (s.deliver tr).ScannerSound := by
  refine hs.ofMap (f := fun sc => if sc.trigger = tr then sc.accept else sc) ?_ fun sc _ hsc => ?_
  · rw [State.deliver_eq]
  · split
    · exact hsc.accept
    · exact hsc

/-- A write reaches the scanner by its trigger alone (R21). -/
theorem State.ScannerSound.store (hs : s.ScannerSound) (i : PointIx) (pt : Point) (v : Word) (q : Quality) :
    (s.store i pt v q).ScannerSound := by
  rw [State.store_eq]
  exact (hs.deliver (.point i)).same rfl

end

/-- The parts of a write keep the scanner sound. -/
theorem scannerSound_writes : KeptByWrites State.ScannerSound where
  store _ i pt _ q _ _ hs := hs.store i pt _ q
  raise _ rs hs := hs.raiseAll rs
  release s p i _ _ _ hs := hs.same (s.releasePoint_scanner p i)
  batch _ _ _ hs := hs.same rfl

section
variable {s t : State}

theorem State.ScannerSound.freeExecutor (hs : s.ScannerSound) : s.freeExecutor.ScannerSound :=
  hs.same (State.startRun_scanner _)

/-- The end of a run reaches the scanner by its chain pulse alone (R134). -/
theorem State.ScannerSound.endRun (hs : s.ScannerSound) (n : OrderIx) (o : Order) : (s.endRun n o).ScannerSound := by
  have pulsed : ∀ w : State, w.ScannerSound → (w.pulse o.defn.chain).ScannerSound := fun w hw => by
    cases o.defn.chain with
    | none => exact hw
    | some k => exact hw.deliver (.chain k)
  unfold State.endRun
  refine State.ScannerSound.freeExecutor (pulsed _ ?_)
  split
  · exact hs.same rfl
  · exact hs.same rfl

/-- A copy event reaches the scanner by the triggers of its write and of its chain pulse (R128, R134). -/
theorem State.ScannerSound.takeCopy {r : Run} {o₀ : Order} (hs : s.ScannerSound) (ho₀ : s.order r.order = some o₀) :
    (s.takeCopy r o₀).ScannerSound := by
  have reported : (s.reported r o₀).ScannerSound := (scannerSound_writes.applyCopy r.order o₀ r.position hs).same rfl
  obtain ⟨o, ho, -⟩ := State.order_reported ho₀
  cases hstop : r.stopping with
  | true =>
    rw [State.takeCopy_stopped ho hstop]
    exact reported.freeExecutor.raiseAll _
  | false =>
    by_cases hmore : r.position + 1 < o.defn.runLength
    · rw [State.takeCopy_goesOn ho hstop hmore]
      refine State.ScannerSound.raiseAll ?_ _
      exact reported.same rfl
    · rw [State.takeCopy_ends ho hstop hmore]
      exact (reported.endRun r.order o).raiseAll _

theorem State.ScannerSound.timerTick (hs : s.ScannerSound) (n : Fin 4) : (s.timerTick n).ScannerSound := by
  have hset : ∀ x, (s.setTimer n x).ScannerSound := fun x => hs.same rfl
  unfold State.timerTick
  dsimp only
  split
  · exact (hset _).deliver _
  · exact hset _

theorem State.ScannerSound.takeEdge (hs : s.ScannerSound) (n : Fin 8) (level : Level) : (s.takeEdge n level).ScannerSound := by
  have hset : ∀ x, (s.setLine n x).ScannerSound := fun x => hs.same rfl
  unfold State.takeEdge
  dsimp only
  split
  · exact (hset _).deliver _
  · exact hset _

/-- The write of a result does not trigger a sound scanner, which selects no POINT source (R142). -/
theorem State.scanner_scanWrite {sc : Scanner} (hsc : s.scanner = some sc) (htrigger : ∀ i, sc.trigger ≠ .point i)
    (e : ScanEntry) (raw : BitVec 12) : (s.scanWrite e raw).1.scanner = some sc := by
  unfold State.scanWrite
  split
  · exact hsc
  · exact State.scanner_store hsc htrigger ..

/-- After a completion the scanner converts its next entry or ends the pass (R149, R150). -/
theorem State.ScannerSound.converted {sc : Scanner} (hs : s.ScannerSound) (hsc : s.scanner = some sc)
    (hphase : sc.phase = .converting) (e : ScanEntry) (raw : BitVec 12) (rs : List Raise) :
    (((s.scanWrite e raw).1.nextConversion sc.current sc.entries.length).raiseAll rs).ScannerSound := by
  have hsound := hs sc hsc
  have hwritten := State.scanner_scanWrite hsc hsound.trigger_ne_point e raw
  refine State.ScannerSound.raiseAll ?_ rs
  rw [State.nextConversion_eq, hwritten]
  refine State.scannerSound_of rfl ?_
  split
  · exact hsound.convert hphase ‹_›
  · exact hsound.endPass hphase

end

/-- Every command keeps the scanner sound, given ports whose windows hold well-formed requests alone: it delivers triggers, or
is the scanner's own. -/
theorem scannerSound_exec (c : Instr) (s t : State) (hp : s.PortsSound) (hs : s.ScannerSound) (h : exec c s = .next t) :
    t.ScannerSound := by
  have hscanner := congrArg State.scanner (exec_putBack h)
  cases c with
  | coldReset =>
    cases h
    exact nofun
  | write p entries =>
    unfold exec execWrite at h
    refine onRequest_keeps hs (fun _ => ?_) h
    split
    · exact hs.replied
    · exact (scannerSound_writes.takeWrites p _ hs).replied
  | tableReset p =>
    unfold exec execTableReset at h
    refine onRequest_keeps hs (fun _ => ?_) h
    exact hs.ofMap (f := Scanner.afterReset) rfl fun _ _ hsc => hsc.abandon .defined
  | timerTick n =>
    unfold exec execTimerTick at h
    exact event_keeps hs (fun _ _ => (hs.timerTick n).settled) h
  | timerExpiry n =>
    unfold exec execTimerExpiry at h
    exact event_keeps hs (fun _ _ => (hs.timerTick n).settled) h
  | lineEdge n level =>
    unfold exec execLineEdge at h
    exact event_keeps hs (fun _ _ => (hs.takeEdge n level).settled) h
  | batchCommit p release =>
    unfold exec execBatchCommit at h
    refine onRequest_keeps hs (fun _ => ?_) h
    split
    · exact hs.replied
    · split
      · exact hs.replied
      · exact (scannerSound_writes.commit p _ release ‹_› hs).replied
  | orderCopy =>
    unfold exec execOrderCopy at h
    refine event_keeps hs (fun _ _ => ?_) h
    split
    · exact hs.settled
    · split
      · exact hs.freeExecutor.settled
      · exact (hs.takeCopy ‹_›).settled
  | scanDefine p args =>
    unfold exec execScanDefine at h
    refine onRequest_keeps hs (fun hdue => ?_) h
    split
    · exact hs.replied
    · split
      · exact hs.replied
      · exact State.scannerSound_of rfl (scannerOf?_sound ‹_› (hp.kept.wf_of_due hdue))
  | scanArm p =>
    unfold exec execScanArm at h
    refine onRequest_keeps hs (fun _ => ?_) h
    split
    · exact hs.replied
    · rename_i sc hsc
      split
      · exact hs.replied
      · dsimp only
        split
        · exact hs.replied
        · exact State.scannerSound_of rfl (hs sc hsc).arm
  | scanStart p =>
    unfold exec execScanStart at h
    refine onRequest_keeps hs (fun _ => ?_) h
    split
    · exact hs.replied
    · rename_i sc hsc
      split
      · exact hs.replied
      · exact State.scannerSound_of rfl (hs sc hsc).accept
  | scanStop p =>
    unfold exec execScanStop at h
    refine onRequest_keeps hs (fun _ => ?_) h
    split
    · exact hs.replied
    · rename_i sc hsc
      split
      · exact hs.replied
      · exact hs.replied
      · exact State.scannerSound_of rfl ((hs sc hsc).abandon .armed)
  | scanDisarm p =>
    unfold exec execScanDisarm at h
    refine onRequest_keeps hs (fun _ => ?_) h
    split
    · exact hs.replied
    · rename_i sc hsc
      split
      · refine State.ScannerSound.replied (State.ScannerSound.raiseAll ?_ _)
        exact State.scannerSound_of rfl ((hs sc hsc).abandon .defined)
      · exact hs.replied
  | conversionCompletion raw =>
    unfold exec execConversionCompletion at h
    refine event_keeps hs (fun _ hdue => ?_) h
    split
    · exact hs.settled
    · rename_i sc hsc
      split
      · exact hs.settled
      · have hphase : sc.phase = .converting := by simpa [State.converting, hsc] using hdue
        have hconverted := fun e rs => hs.converted hsc hphase e raw rs
        exact State.ScannerSound.settled (hconverted _ _)
  | _ => exact hs.same hscanner

/-- Settles O14: every command keeps the ports sound, and the scanner with them, and none reads the queue of commands. -/
theorem scannerRecordStaysSound : Obligations.ScannerRecordStaysSound :=
  keptByStep_of (fun _ _ hs => ⟨hs.1.same rfl rfl, hs.2.same rfl⟩) fun c s t hs h =>
    ⟨portsSound_exec c s t hs.1 h, scannerSound_exec c s t hs.1 hs.2 h⟩

end Sys2Proof.Machine

namespace Sys2Proof.Machine

/-! ### SCAN_DEFINE in parts (R200) -/

/-- Behind answered entries the oldest ACCEPTED entry is presented as another request, under its SEQ. -/
theorem presentAs_behind {before : List Entry} (hanswered : ∀ e ∈ before, Entry.isAnswered e = true) (whole : Request)
    (seq : Byte) (r : Request) (after : List Entry) :
    presentAs whole (before ++ .accepted seq r :: after) = before ++ .accepted seq whole :: after := by
  induction before with
  | nil => rfl
  | cons e before ih =>
    obtain ⟨he, hbefore⟩ := List.forall_mem_cons.1 hanswered
    cases e with
    | accepted => cases he
    | answered seq' st b => exact congrArg (List.cons _) (ih hbefore)

/-- A window with an ACCEPTED entry then presents the other request. -/
theorem oldestAccepted_presentAs {window : List Entry} {r : Request} (h : oldestAccepted window = some r) (whole : Request) :
    oldestAccepted (presentAs whole window) = some whole := by
  induction window with
  | nil => cases h
  | cons e rest ih =>
    cases e with
    | accepted => rfl
    | answered => exact ih h

/-- The entries staged before a part: none when the part begins at entry 0 (R200). -/
def stagedBefore (staged : List ScanEntryArgs) (x : ScanPartArgs) : List ScanEntryArgs := if x.first = 0 then [] else staged

/-- A port set and then answered is that port set with its window answered. -/
theorem State.answer_setPort (s : State) (p : Port) (x : PortState) (st : Status) (b : Body) :
    (s.setPort p x).answer p st b = s.setPort p { x with window := answerOldest st b x.window } := by
  cases p <;> rfl

section
variable {s : State} {p : Port}

section
variable {args : ScanPartArgs}

/-- A part that does not follow the entries staged, or that makes more than 16, is refused (R200). -/
theorem stageEntries_refused {staged : List ScanEntryArgs} (h : (stagedBefore staged args).length ≠ args.first.toNat ∨
    16 < (stagedBefore staged args ++ args.entries).length) : stageEntries staged args = none := by
  rw [List.length_append] at h
  refine if_neg fun ⟨hfirst, hmost⟩ => ?_
  exact h.elim (absurd hfirst) (Nat.not_lt.2 hmost)

/-- Any other part joins its entries to those staged (R200). -/
theorem stageEntries_joined {staged : List ScanEntryArgs} (hfirst : (stagedBefore staged args).length = args.first.toNat)
    (hmost : (stagedBefore staged args ++ args.entries).length ≤ 16) :
    stageEntries staged args = some (stagedBefore staged args ++ args.entries) := by
  rw [List.length_append] at hmost
  exact if_pos ⟨hfirst, hmost⟩

theorem exec_scanDefinePart_refused (hdue : s.Due p (.scanDefinePart args))
    (h : stageEntries (s.ports.get p).staged args = none) :
    exec (.scanDefinePart p args) s = .next (s.answer p .badArg .empty).settle := by
  show execScanDefinePart p args s = _
  simp only [execScanDefinePart, onRequest_due hdue, h]

theorem exec_scanDefinePart_staged {entries : List ScanEntryArgs} (hdue : s.Due p (.scanDefinePart args))
    (h : stageEntries (s.ports.get p).staged args = some entries) (hlast : args.last = false) :
    exec (.scanDefinePart p args) s =
      .next (s.setPort p { s.ports.get p with
        window := answerOldest .ok (.entries entries.length) (s.ports.get p).window
        staged := entries }).settle := by
  show execScanDefinePart p args s = _
  simp only [execScanDefinePart, onRequest_due hdue, h, hlast, Bool.false_eq_true, if_false, State.answer_setPort]

theorem exec_scanDefinePart_last {entries : List ScanEntryArgs} (hdue : s.Due p (.scanDefinePart args))
    (h : stageEntries (s.ports.get p).staged args = some entries) (hlast : args.last = true) :
    exec (.scanDefinePart p args) s =
      .next (s.setPort p { s.ports.get p with
        window := presentAs (.scanDefine ⟨args.mode, args.trigger, entries⟩) (s.ports.get p).window
        staged := [] }).settle := by
  show execScanDefinePart p args s = _
  simp only [execScanDefinePart, onRequest_due hdue, h, hlast, if_true]

end

/-- One port set, and the end of the event: that port is the one set, and its attention line follows (R182). -/
theorem State.ports_setPort_self (s : State) (p : Port) (x : PortState) : (s.setPort p x).settle.ports.get p =
    { x with attn := attnLevel ((s.setPort p x).settle.ports.get p) ((s.setPort p x).settle.notices.get p) } := by
  refine (State.ports_settle (s.setPort p x) p).trans ?_
  rw [State.setPort_ports, PerPort.get_set, if_pos rfl]

/-- One port set, and the end of the event: every other port changes in its attention line alone (R182). -/
theorem State.ports_setPort_other (s : State) (p : Port) (x : PortState) {q : Port} (h : q ≠ p) :
    (s.setPort p x).settle.ports.get q =
      { s.ports.get q with
        attn := attnLevel ((s.setPort p x).settle.ports.get q) ((s.setPort p x).settle.notices.get q) } := by
  refine (State.ports_settle (s.setPort p x) q).trans ?_
  rw [State.setPort_ports, PerPort.get_set, if_neg h]

section
variable {args : ScanDefineArgs}

/-- A SCAN_DEFINE that fails a check (R142). -/
theorem exec_scanDefine_refused (hdue : s.Due p (.scanDefine args)) (h : scannerOf? p args = none) :
    exec (.scanDefine p args) s = .next (s.answer p .badArg .empty).settle := by
  show execScanDefine p args s = _
  simp only [execScanDefine, onRequest_due hdue, h]

/-- A SCAN_DEFINE that passes its checks while the scanner is ARMED or CONVERTING (R142). -/
theorem exec_scanDefine_holding {sc : Scanner} (hdue : s.Due p (.scanDefine args)) (h : scannerOf? p args = some sc)
    (hholds : s.scanner.any Scanner.holds = true) :
    exec (.scanDefine p args) s = .next (s.answer p .state .empty).settle := by
  show execScanDefine p args s = _
  simp only [execScanDefine, onRequest_due hdue, h, hholds, if_true]

/-- A SCAN_DEFINE that is accepted stores its record (R143). -/
theorem exec_scanDefine_stored {sc : Scanner} (hdue : s.Due p (.scanDefine args)) (h : scannerOf? p args = some sc)
    (hidle : s.scanner.any Scanner.holds = false) :
    exec (.scanDefine p args) s = .next (State.answer { s with scanner := some sc } p .ok .empty).settle := by
  show execScanDefine p args s = _
  simp only [execScanDefine, onRequest_due hdue, h, hidle, Bool.false_eq_true, if_false]

end

end

/-- The record that a SCAN_DEFINE gives, field by field (R142, R143). -/
theorem scannerOf?_eq_some_fields (p : Port) (args : ScanDefineArgs) (sc : Scanner) : scannerOf? p args = some sc ↔
    sc.owner = p ∧
      args.mode = (match sc.mode with
       | .single => 0x00
       | .continuous => 0x01) ∧
      CarriesTrigger args.trigger sc.trigger ∧ sc.trigger ≠ .scanEnd ∧
      (∀ i, sc.trigger ≠ .point i) ∧ args.entries.length = sc.entries.length ∧
      (∀ x ∈ args.entries.zip sc.entries, x.1.input.toNat = x.2.input.val ∧ x.1.dest.toNat = x.2.dest.val ∧
        x.1.gain = x.2.gain ∧ x.1.offset = x.2.offset ∧ x.1.rail = (if x.2.rail then 0x01 else 0x00)) ∧
      (sc.entries.map ScanEntry.dest).Nodup ∧ sc.phase = .defined ∧ sc.current = 0 ∧ sc.pendingPass = false ∧
      sc.passCount = 0 ∧ sc.missed = 0 := by
  rw [scannerOf?_eq_some, scanMode?_eq_some, scanTrigger?_eq_some, allSome_eq_some]
  simp only [scanEntry?_eq_some, and_assoc] <;> rfl

/-- Settles O46: a part by what is staged, the assembled SCAN_DEFINE by its checks, and those checks field by field. -/
theorem scanDefineInParts : Obligations.ScanDefineInParts := by
  refine ⟨⟨fun before after seq r whole hanswered => presentAs_behind hanswered whole seq r after,
    fun s p args hdue => ⟨fun h => ?_, fun hfirst hmost => ?_⟩⟩, fun s p args hdue => ?_, scannerOf?_eq_some_fields⟩
  · exact onlyReplies_of (exec_scanDefinePart_refused hdue (stageEntries_refused h))
  · have hstage := stageEntries_joined hfirst hmost
    cases hlast : args.last with
    | false =>
      exact ⟨_, exec_scanDefinePart_staged hdue hstage hlast, rfl, fun q hq => State.ports_setPort_other s p _ hq,
        fun _ => State.ports_setPort_self s p _, nofun⟩
    | true =>
      refine ⟨_, exec_scanDefinePart_last hdue hstage hlast, rfl, fun q hq => State.ports_setPort_other s p _ hq, nofun,
        fun _ => ⟨?_, State.ports_setPort_self s p _⟩⟩
      unfold State.presented
      rw [State.ports_setPort_self]
      exact oldestAccepted_presentAs hdue.2 _
  · exact ⟨fun h => onlyReplies_of (exec_scanDefine_refused hdue h), fun sc hsc =>
      ⟨fun hholds => onlyReplies_of (exec_scanDefine_holding hdue hsc hholds), fun hidle =>
        ⟨_, exec_scanDefine_stored hdue hsc hidle, replied_answer rfl p _ _, rfl, rfl⟩⟩⟩

end Sys2Proof.Machine

namespace Sys2Proof.Machine

/-! ### Argument fields of the time base (R158, R161, R162, R166) -/

theorem twoWay?_eq_none (b : Byte) : twoWay? b = none ↔ 1 < b.toNat := by
  revert b
  decide +kernel

theorem timerIx?_eq_some (b : Byte) (n : Fin 4) : timerIx? b = some n ↔ b.toNat = n.val := by
  unfold timerIx?
  split
  · simp [Fin.ext_iff]
  · exact iff_of_false nofun (by omega)

theorem timerIx?_eq_none (b : Byte) : timerIx? b = none ↔ 3 < b.toNat := by
  unfold timerIx?
  split <;> simp <;> omega

theorem timerMode?_eq_some (b : Byte) (m : TimerMode) :
    timerMode? b = some m ↔ (b = 0 ∧ m = .oneShot) ∨ (b = 1 ∧ m = .periodic) := by
  revert b
  cases m <;> decide +kernel

theorem timerMode?_eq_none (b : Byte) : timerMode? b = none ↔ 1 < b.toNat :=
  Option.map_eq_none_iff.trans (twoWay?_eq_none b)

theorem edge?_eq_some (b : Byte) (e : EdgeSetting) :
    edge? b = some e ↔ (b = 0 ∧ e = .off) ∨ (b = 1 ∧ e = .rise) ∨ (b = 2 ∧ e = .fall) ∨ (b = 3 ∧ e = .both) := by
  revert b
  cases e <;> decide +kernel

theorem edge?_eq_none (b : Byte) : edge? b = none ↔ 3 < b.toNat := by
  revert b
  decide +kernel

/-- The arguments that TICK_SET refuses (R158). -/
theorem tickArgs?_eq_none (period : Half) (code : Byte) :
    tickArgs? period code = none ↔ period = 0 ∨ 10000 < period.toNat ∨ 1 < code.toNat := by
  have hzero : period = 0 ↔ period.toNat = 0 := BitVec.toNat_eq
  rw [hzero]
  have hmax : Config.tickPeriodMax = 10000 := rfl
  unfold tickArgs?
  split
  · rename_i hbad
    simp only [hmax, Bool.or_eq_true, decide_eq_true_eq] at hbad
    exact iff_of_true rfl (by omega)
  · rename_i hgood
    simp only [hmax, Bool.or_eq_true, decide_eq_true_eq] at hgood
    rw [Option.map_eq_none_iff, twoWay?_eq_none]
    omega

/-- The arguments that TICK_SET accepts, and what they say (R158). -/
theorem tickArgs?_passed {period : Half} {code : Byte} {run : Bool} (hlow : 1 ≤ period.toNat) (hhigh : period.toNat ≤ 10000)
    (hcode : code = if run then 1 else 0) : tickArgs? period code = some (period.toNat, run) := by
  have hmax : Config.tickPeriodMax = 10000 := rfl
  unfold tickArgs?
  rw [if_neg, (twoWay?_eq_some code run).2 hcode]
  · rfl
  · simp only [hmax, Bool.or_eq_true, decide_eq_true_eq]
    omega

/-! ### The tick generator (R157 to R159) -/

/-- A tick produced is counted at a running timer (R159, log 6). -/
theorem Timer.tickDue_eq (t : Timer) : t.tickDue = { t with due := if t.running then t.due + 1 else t.due } := by
  obtain ⟨_, _, running, _, _⟩ := t
  cases running <;> rfl

/-- The rows of the table of R158: the interval ends with the tick, starts with it, and stays otherwise. -/
theorem TickGen.set_eq (g : TickGen) (period : Nat) (run : Bool) :
    g.set period run =
      { g with
        period := period
        running := run
        interval := if run then (if g.running then g.interval else some period) else if g.running then none else g.interval } := by
  obtain ⟨_, running, _, _, _⟩ := g
  cases running <;> cases run <;> rfl

section
variable {s : State} {p : Port}

theorem exec_tick_due (hheld : s.held = false) (hrun : s.tickGen.running = true) : exec .tick s = .next s.produceTick.settle := by
  show execTick s = _
  rw [execTick, hrun, event_due hheld]

/-- A TICK_SET with arguments outside the bounds of R158. -/
theorem exec_tickSet_badArg {period : Half} {code : Byte} (hdue : s.Due p (.tickSet period code))
    (h : tickArgs? period code = none) : exec (.tickSet p period code) s = .next (s.answer p .badArg .empty).settle := by
  show execTickSet p period code s = _
  simp only [execTickSet, onRequest_due hdue, h]

/-- A TICK_SET that is accepted sets the tick generator and reports what it held (R158). -/
theorem exec_tickSet_passed {period : Half} {code : Byte} {n : Nat} {run : Bool} (hdue : s.Due p (.tickSet period code))
    (h : tickArgs? period code = some (n, run)) :
    exec (.tickSet p period code) s =
      .next (State.answer { s with tickGen := s.tickGen.set n run } p .ok (.tick s.tickGen.period s.tickGen.running)).settle := by
  show execTickSet p period code s = _
  simp only [execTickSet, onRequest_due hdue, h]

theorem State.timerDue_iff (n : Fin 4) : s.timerDue n = true ↔
    s.tickGen.running = true ∧ s.timers[n.val].running = true ∧ 0 < s.timers[n.val].due := by
  simp only [State.timerDue, Bool.and_eq_true, decide_eq_true_eq, and_assoc]

end

/-- Settles O49: the tick produced, the arguments and rows of TICK_SET, and when a tick is due at each consumer. -/
theorem tickIsProducedAndSet : Obligations.TickIsProducedAndSet := by
  refine ⟨fun s hheld hrun => ⟨_, exec_tick_due hheld hrun, quiet_settle rfl, rfl, fun n => ?_, rfl⟩,
    fun s p period code hdue => ⟨fun hbad => ?_, fun hlow hhigh run hcode => ?_⟩,
    fun s => ⟨?_, ?_, fun n => State.timerDue_iff n⟩⟩
  · exact (mapTable_getElem Timer.tickDue s.timers n.val n.isLt).trans (Timer.tickDue_eq _)
  · exact onlyReplies_of (exec_tickSet_badArg hdue ((tickArgs?_eq_none period code).2 hbad))
  · exact ⟨_, exec_tickSet_passed hdue (tickArgs?_passed hlow hhigh hcode), replied_answer rfl p _ _,
      TickGen.set_eq s.tickGen period.toNat run, rfl⟩
  · simp only [State.ageingDue, Bool.and_eq_true, decide_eq_true_eq]
  · simp only [State.arbiterDue, Bool.and_eq_true, decide_eq_true_eq]

end Sys2Proof.Machine

namespace Sys2Proof.Machine

/-! ### Tables -/

/-- Setting an entry of a table changes that entry alone. -/
theorem table_set {α : Type} {k : Nat} (v : Vector α k) (n : Fin k) (x : α) :
    (v.set n.val x)[n.val] = x ∧ ∀ m : Fin k, m ≠ n → (v.set n.val x)[m.val] = v[m.val] :=
  ⟨Vector.getElem_set_self n.isLt, fun m hm => Vector.getElem_set_ne n.isLt m.isLt (Fin.val_ne_of_ne hm.symm)⟩

/-! ### One timer set (R161 to R163) -/

section
variable {s w : State} {n : Fin 4} {x : Timer}

/-- Seen from a state with the same timers as `w`, setting a timer of `w` changes that timer alone. -/
theorem State.timers_setTimer_frame (hw : w.timers = s.timers) (n : Fin 4) (x : Timer) :
    (w.setTimer n x).timers[n.val] = x ∧ ∀ m : Fin 4, m ≠ n → (w.setTimer n x).timers[m.val] = s.timers[m.val] := by
  simp only [← hw, State.setTimer_timers]
  exact table_set w.timers n x

/-- A trigger's delivery neither reads nor writes the timers. -/
theorem State.deliver_setTimer (s : State) (n : Fin 4) (x : Timer) (tr : Trigger) :
    (s.setTimer n x).deliver tr = (s.deliver tr).setTimer n x := by
  obtain ⟨horders, hexecutor⟩ := State.deliver_congr (s := s) (t := s.setTimer n x) rfl rfl tr
  rw [State.deliver_eq, State.deliver_eq s, horders, hexecutor]
  rfl

/-- Setting a timer at the end of an event: the timers and the ports put back, the rest is as before. -/
theorem State.settle_setTimer_frame (hports : w.ports = s.ports) (htimers : w.timers = s.timers) (n : Fin 4) (x : Timer) :
    { (w.setTimer n x).settle with timers := s.timers, ports := s.ports } = w := by
  rw [← hports, ← htimers]
  rfl

/-! ### TIMER_TICK and TIMER_EXPIRY (R163) -/

theorem Timer.expires_iff (x : Timer) : x.expires = true ↔ x.remaining ≤ 1 := decide_eq_true_iff

/-- A timer with more than one tick to go counts down (R163). -/
theorem State.timerTick_counts (h : 1 < s.timers[n.val].remaining) :
    s.timerTick n = s.setTimer n
      { s.timers[n.val] with remaining := s.timers[n.val].remaining - 1, due := s.timers[n.val].due - 1 } := by
  have hgoes : ¬ s.timers[n.val].expires = true := mt (Timer.expires_iff _).1 (Nat.not_le.2 h)
  simp only [State.timerTick, Timer.ticked, if_neg hgoes]

/-- A timer that expires delivers its trigger, and reloads when it is periodic or stops when it is one-shot (R163). -/
theorem State.timerTick_expires (h : s.timers[n.val].remaining ≤ 1) :
    s.timerTick n = (s.deliver (.timer n)).setTimer n s.timers[n.val].ticked := by
  have hexpires := (Timer.expires_iff _).2 h
  simp only [State.timerTick, if_pos hexpires, State.deliver_setTimer]

/-- What an expiry makes of the timer (R163). -/
theorem Timer.ticked_expires (h : x.remaining ≤ 1) :
    x.ticked = match x.mode with
      | .periodic => { x with remaining := x.period, due := x.due - 1 }
      | .oneShot => { x with running := false, remaining := 0, due := 0 } :=
  if_pos (x.expires_iff.2 h)

theorem exec_timerTick_due (hheld : s.held = false) (hdue : s.timerDue n = true) :
    exec (.timerTick n) s = .next (s.timerTick n).settle := by
  show execTimerTick n s = _
  rw [execTimerTick, hdue, event_due hheld]

/-- TIMER_EXPIRY names the tick at which the timer expires (log 8). -/
theorem exec_timerExpiry_due (hheld : s.held = false) (hdue : s.timerDue n = true) (h : s.timers[n.val].remaining ≤ 1) :
    exec (.timerExpiry n) s = .next (s.timerTick n).settle := by
  show execTimerExpiry n s = _
  rw [execTimerExpiry, hdue, (Timer.expires_iff _).2 h]
  exact event_due hheld _

end

/-! ### TIMER_SET and TIMER_STOP (R161, R162) -/

section
variable {s : State} {p : Port} {num : Byte}

/-- A TIMER_SET that names no timer, no mode or no period (R161). -/
theorem exec_timerSet_badArg {period : Half} {mode : Byte} (hdue : s.Due p (.timerSet num period mode))
    (h : timerIx? num = none ∨ period = 0 ∨ timerMode? mode = none) :
    exec (.timerSet p num period mode) s = .next (s.answer p .badArg .empty).settle := by
  show execTimerSet p num period mode s = _
  rw [execTimerSet, onRequest_due hdue]
  split
  · rename_i hnum hmode
    have hperiod : period = 0 := by simpa [hnum, hmode] using h
    simp only [hperiod, if_true]
  · rfl

/-- A TIMER_SET that is accepted loads the timer and reports what it held (R161). -/
theorem exec_timerSet_passed {period : Half} {mode : Byte} {n : Fin 4} {m : TimerMode}
    (hdue : s.Due p (.timerSet num period mode)) (hnum : timerIx? num = some n) (hmode : timerMode? mode = some m)
    (hperiod : period ≠ 0) :
    exec (.timerSet p num period mode) s =
      .next ((s.setTimer n (s.timers[n.val].load period.toNat m)).answer p .ok
        (.timer s.timers[n.val].period s.timers[n.val].mode s.timers[n.val].running s.timers[n.val].remaining)).settle := by
  show execTimerSet p num period mode s = _
  simp only [execTimerSet, onRequest_due hdue, hnum, hmode, hperiod, if_false]

theorem exec_timerStop_badArg (hdue : s.Due p (.timerStop num)) (h : timerIx? num = none) :
    exec (.timerStop p num) s = .next (s.answer p .badArg .empty).settle := by
  show execTimerStop p num s = _
  simp only [execTimerStop, onRequest_due hdue, h]

/-- A TIMER_STOP that names a timer halts it and reports what it held (R162). -/
theorem exec_timerStop_passed {n : Fin 4} (hdue : s.Due p (.timerStop num)) (hnum : timerIx? num = some n) :
    exec (.timerStop p num) s =
      .next ((s.setTimer n s.timers[n.val].halt).answer p .ok
        (.timerStop s.timers[n.val].running s.timers[n.val].remaining)).settle := by
  show execTimerStop p num s = _
  simp only [execTimerStop, onRequest_due hdue, hnum]

end

/-- Settles O52: every command is one timer set, in the state itself or, at an expiry, with the trigger delivered. -/
theorem timersCountAndAreSet : Obligations.TimersCountAndAreSet := by
  refine ⟨fun s n hheld hdue => ⟨fun hmore => ?_, fun hlast => ?_⟩,
    fun s p num period mode hdue => ⟨fun hbad => ?_, fun n m hnum hperiod hmode => ?_⟩,
    fun s p num hdue => ⟨fun hbad => ?_, fun n hnum => ?_⟩⟩
  · have hexec := exec_timerTick_due hheld hdue
    rw [State.timerTick_counts hmore] at hexec
    obtain ⟨hset, hothers⟩ := State.timers_setTimer_frame (w := s) rfl n
      { s.timers[n.val] with remaining := s.timers[n.val].remaining - 1, due := s.timers[n.val].due - 1 }
    exact ⟨_, hexec, quiet_settle rfl, hset, hothers, State.settle_setTimer_frame rfl rfl n _⟩
  · have hexec := exec_timerTick_due hheld hdue
    have hnamed := exec_timerExpiry_due hheld hdue hlast
    rw [State.timerTick_expires hlast] at hexec hnamed
    obtain ⟨hset, hothers⟩ := State.timers_setTimer_frame (s.deliver_timers (.timer n)) n s.timers[n.val].ticked
    exact ⟨_, hexec, hnamed, quiet_settle (s.deliver_ports _), hset.trans (Timer.ticked_expires hlast), hothers,
      State.settle_setTimer_frame (s.deliver_ports _) (s.deliver_timers _) n _⟩
  · rw [← timerIx?_eq_none, ← timerMode?_eq_none] at hbad
    exact onlyReplies_of (exec_timerSet_badArg hdue hbad)
  · obtain ⟨hset, hothers⟩ := State.timers_setTimer_frame (w := s) rfl n (s.timers[n.val].load period.toNat m)
    exact ⟨_, exec_timerSet_passed hdue ((timerIx?_eq_some num n).2 hnum) ((timerMode?_eq_some mode m).2 hmode) hperiod,
      replied_answer rfl p _ _, hset, hothers, rfl⟩
  · exact onlyReplies_of (exec_timerStop_badArg hdue ((timerIx?_eq_none num).2 hbad))
  · obtain ⟨hset, hothers⟩ := State.timers_setTimer_frame (w := s) rfl n s.timers[n.val].halt
    exact ⟨_, exec_timerStop_passed hdue ((timerIx?_eq_some num n).2 hnum), replied_answer rfl p _ _, hset, hothers, rfl⟩

end Sys2Proof.Machine

namespace Sys2Proof.Machine

/-! ### One trigger input line set (R165, R166) -/

section
variable {s w : State} {n : Fin 8}

/-- Seen from a state with the same lines as `w`, setting a line of `w` changes that line alone. -/
theorem State.lines_setLine_frame (hw : w.lines = s.lines) (n : Fin 8) (x : InLine) :
    (w.setLine n x).lines[n.val] = x ∧ ∀ m : Fin 8, m ≠ n → (w.setLine n x).lines[m.val] = s.lines[m.val] := by
  simp only [← hw, State.setLine_lines]
  exact table_set w.lines n x

/-- A trigger's delivery neither reads nor writes the trigger input lines. -/
theorem State.deliver_setLine (s : State) (n : Fin 8) (x : InLine) (tr : Trigger) :
    (s.setLine n x).deliver tr = (s.deliver tr).setLine n x := by
  obtain ⟨horders, hexecutor⟩ := State.deliver_congr (s := s) (t := s.setLine n x) rfl rfl tr
  rw [State.deliver_eq, State.deliver_eq s, horders, hexecutor]
  rfl

/-- Setting a line at the end of an event: the lines and the ports put back, the rest is as before. -/
theorem State.settle_setLine_frame (hports : w.ports = s.ports) (hlines : w.lines = s.lines) (n : Fin 8) (x : InLine) :
    { (w.setLine n x).settle with lines := s.lines, ports := s.ports } = w := by
  rw [← hports, ← hlines]
  rfl

/-! ### LINE_EDGE (R165) -/

/-- The edges that each setting hears (R165). -/
theorem EdgeSetting.hears_iff (e : EdgeSetting) (level : Level) :
    e.hears level = true ↔ e = .both ∨ (e = .rise ∧ level = .high) ∨ (e = .fall ∧ level = .low) := by
  cases e <;> simp [EdgeSetting.hears]

/-- The state after the trigger that an edge of a line makes: delivered when the setting in force hears the edge (R165). -/
def State.edgeHeard (s : State) (n : Fin 8) (level : Level) : State :=
  if s.lines[n.val].edge.hears level then s.deliver (.line n) else s

theorem State.edgeHeard_ports (s : State) (n : Fin 8) (level : Level) : (s.edgeHeard n level).ports = s.ports := by
  unfold State.edgeHeard
  split
  · exact s.deliver_ports _
  · rfl

theorem State.edgeHeard_lines (s : State) (n : Fin 8) (level : Level) : (s.edgeHeard n level).lines = s.lines := by
  unfold State.edgeHeard
  split
  · exact s.deliver_lines _
  · rfl

/-- An edge taken makes its trigger, and its line settles at the level (R165). -/
theorem State.takeEdge_eq (s : State) (n : Fin 8) (level : Level) :
    s.takeEdge n level = (s.edgeHeard n level).setLine n { s.lines[n.val] with settled := level } := by
  unfold State.takeEdge State.edgeHeard
  simp only [State.deliver_setLine]
  split <;> rfl

theorem exec_lineEdge_due {level : Level} (hheld : s.held = false) (h : s.lines[n.val].settled ≠ level) :
    exec (.lineEdge n level) s = .next (s.takeEdge n level).settle := by
  show execLineEdge n level s = _
  rw [execLineEdge, decide_eq_true h, event_due hheld]

/-! ### LINE_SET (R166) -/

/-- A LINE_SET that names no line or no edge setting. -/
theorem exec_lineSet_badArg {p : Port} {num code : Byte} (hdue : s.Due p (.lineSet num code))
    (h : lineIx? num = none ∨ edge? code = none) :
    exec (.lineSet p num code) s = .next (s.answer p .badArg .empty).settle := by
  show execLineSet p num code s = _
  rw [execLineSet, onRequest_due hdue]
  split
  · rename_i hnum hcode
    simp [hnum, hcode] at h
  · rfl

/-- A LINE_SET that is accepted replaces the edge setting and reports the one before. -/
theorem exec_lineSet_passed {p : Port} {num code : Byte} {e : EdgeSetting} (hdue : s.Due p (.lineSet num code))
    (hnum : lineIx? num = some n) (hcode : edge? code = some e) :
    exec (.lineSet p num code) s =
      .next ((s.setLine n { s.lines[n.val] with edge := e }).answer p .ok
        (.line s.lines[n.val].edge s.lines[n.val].settled)).settle := by
  show execLineSet p num code s = _
  simp only [execLineSet, onRequest_due hdue, hnum, hcode]

end

/-- Settles O53: an edge is its trigger heard and its line set, and a LINE_SET that is accepted sets its line alone. -/
theorem linesTakeEdgesAndSettings : Obligations.LinesTakeEdgesAndSettings := by
  refine ⟨fun s n level hheld hedge => ?_, fun s p num code hdue => ⟨fun hbad => ?_, fun n e hnum hcode => ?_⟩⟩
  · have hheard : s.edgeHeard n level = if s.lines[n.val].edge = .both ∨ (s.lines[n.val].edge = .rise ∧ level = .high) ∨
        (s.lines[n.val].edge = .fall ∧ level = .low) then s.deliver (.line n) else s := by
      simp only [State.edgeHeard, EdgeSetting.hears_iff]
    obtain ⟨hset, hothers⟩ :=
      State.lines_setLine_frame (s.edgeHeard_lines n level) n { s.lines[n.val] with settled := level }
    have hexec := exec_lineEdge_due hheld hedge
    rw [State.takeEdge_eq] at hexec
    exact ⟨_, hexec, quiet_settle (s.edgeHeard_ports n level), hset, hothers,
      (State.settle_setLine_frame (s.edgeHeard_ports n level) (s.edgeHeard_lines n level) n _).trans hheard⟩
  · rw [← lineIx?_eq_none, ← edge?_eq_none] at hbad
    exact onlyReplies_of (exec_lineSet_badArg hdue hbad)
  · obtain ⟨hset, hothers⟩ := State.lines_setLine_frame (w := s) rfl n { s.lines[n.val] with edge := e }
    exact ⟨_, exec_lineSet_passed hdue ((lineIx?_eq_some num n).2 hnum) ((edge?_eq_some code e).2 hcode),
      replied_answer rfl p _ _, hset, hothers, rfl⟩

end Sys2Proof.Machine

/-! PROOFS. The request ports: the configuration set, the attention lines and the end of an exchange; then the bytes of responses
and of requests, each shown to be the fields of its row. -/

namespace Sys2Proof.Machine

/-- Settles O10: every command keeps the ports sound, and none reads the queue of commands. -/
theorem portsStaySound : Obligations.PortsStaySound := portsSound_keptByStep

/-! ### The configuration set (R186, R187) -/

theorem port?_eq_none (b : Byte) : port? b = none ↔ b.toNat = 0 ∨ 4 < b.toNat := by
  revert b
  decide +kernel

section
variable {s : State} {p q : Port} {code : Byte}

theorem exec_configGrant_badArg (hdue : s.Due p (.configGrant code)) (h : port? code = none) :
    exec (.configGrant p code) s = .next (s.answer p .badArg .empty).settle := by
  show execConfigGrant p code s = _
  simp only [execConfigGrant, onRequest_due hdue, h]

/-- A CONFIG_GRANT that names a port adds it to the set and reports the set (R186). -/
theorem exec_configGrant_passed (hdue : s.Due p (.configGrant code)) (h : port? code = some q) :
    exec (.configGrant p code) s =
      .next (State.answer { s with config := s.config.set q true } p .ok (.config (s.config.set q true))).settle := by
  show execConfigGrant p code s = _
  simp only [execConfigGrant, onRequest_due hdue, h]

theorem exec_configRevoke_badArg (hdue : s.Due p (.configRevoke code)) (h : port? code = none) :
    exec (.configRevoke p code) s = .next (s.answer p .badArg .empty).settle := by
  show execConfigRevoke p code s = _
  simp only [execConfigRevoke, onRequest_due hdue, h]

/-- A CONFIG_REVOKE of the only member is refused (R187). -/
theorem exec_configRevoke_sole (hdue : s.Due p (.configRevoke code)) (h : port? code = some q) (hmember : s.config.get q = true)
    (hsole : PortSet.isEmpty (s.config.set q false) = true) :
    exec (.configRevoke p code) s = .next (s.answer p .state .empty).settle := by
  show execConfigRevoke p code s = _
  simp only [execConfigRevoke, onRequest_due hdue, h, hmember, hsole, Bool.and_self, if_true]

/-- Any other CONFIG_REVOKE that names a port removes it from the set and reports the set (R187). -/
theorem exec_configRevoke_passed (hdue : s.Due p (.configRevoke code)) (h : port? code = some q)
    (hother : (s.config.get q && PortSet.isEmpty (s.config.set q false)) = false) :
    exec (.configRevoke p code) s =
      .next (State.answer { s with config := s.config.set q false } p .ok (.config (s.config.set q false))).settle := by
  show execConfigRevoke p code s = _
  simp only [execConfigRevoke, onRequest_due hdue, h, hother, Bool.false_eq_true, if_false]

end

/-- A set loses its last member with a port exactly when it holds no other. -/
theorem PortSet.isEmpty_remove (v : PortSet) (q : Port) :
    PortSet.isEmpty (v.set q false) = true ↔ ∀ o, o ≠ q → v.get o = false := by
  constructor
  · intro hempty o hne
    cases hget : v.get o with
    | false => rfl
    | true =>
      have hsome : PortSet.isEmpty (v.set q false) = false :=
        (PortSet.isEmpty_eq_false _).2 ⟨o, by rw [PerPort.get_set, if_neg hne, hget]⟩
      exact absurd (hsome.symm.trans hempty) Bool.false_ne_true
  · intro hnone
    rw [← Bool.not_eq_false]
    intro hsome
    obtain ⟨o, ho⟩ := (PortSet.isEmpty_eq_false _).1 hsome
    rw [PerPort.get_set] at ho
    split at ho
    · cases ho
    · rename_i hne
      rw [hnone o hne] at ho
      cases ho

/-- Settles O59: each of the two requests is refused, or sets the membership of the port it names and nothing else. -/
theorem configSetIsGrantedAndRevoked : Obligations.ConfigSetIsGrantedAndRevoked := by
  refine ⟨rfl, rfl, fun s p code hdue => ⟨fun hbad => ?_, fun q hq => ?_⟩,
    fun s p code hdue => ⟨fun hbad => ?_, fun q hq => ⟨fun hmember hsole => ?_, fun hother => ?_⟩⟩⟩
  · exact onlyReplies_of (exec_configGrant_badArg hdue ((port?_eq_none code).2 hbad))
  · exact ⟨_, exec_configGrant_passed hdue ((port?_eq_some code q).2 hq), replied_answer rfl p _ _,
      fun o => PerPort.get_set _ q o true, rfl⟩
  · exact onlyReplies_of (exec_configRevoke_badArg hdue ((port?_eq_none code).2 hbad))
  · exact onlyReplies_of (exec_configRevoke_sole hdue ((port?_eq_some code q).2 hq) hmember
      ((PortSet.isEmpty_remove s.config q).2 hsole))
  · have hpassed : (s.config.get q && PortSet.isEmpty (s.config.set q false)) = false := by
      rw [Bool.and_eq_false_imp]
      intro hmember
      rw [← Bool.not_eq_true, PortSet.isEmpty_remove]
      intro hsole
      obtain hout | ⟨o, hne, hin⟩ := hother
      · exact Bool.false_ne_true (hout.symm.trans hmember)
      · exact Bool.false_ne_true ((hsole o hne).symm.trans hin)
    exact ⟨_, exec_configRevoke_passed hdue ((port?_eq_some code q).2 hq) hpassed, replied_answer rfl p _ _,
      fun o => PerPort.get_set _ q o false, rfl⟩

end Sys2Proof.Machine

namespace Sys2Proof.Machine

/-! ### The attention lines (R182 to R184) -/

/-- Responses are ready exactly while the head of the window is one (R176). -/
theorem responsesReady_pos (window : List Entry) : 0 < responsesReady window ↔ headAnswered window := by
  cases window with
  | nil => simp [responsesReady, headAnswered]
  | cons e rest =>
    cases e with
    | accepted => simp [responsesReady, headAnswered, Entry.isAnswered]
    | answered seq st b => exact iff_of_true (Nat.succ_pos _) ⟨_, rfl, rfl⟩

theorem NoticeUnit.calls_iff (u : NoticeUnit) : u.calls = true ↔ u.queue ≠ [] ∨ u.owed ≠ [] := by
  simp [NoticeUnit.calls]

/-- The two inputs of an attention line, each behind its enable (R182). -/
theorem attnLevel_eq_low (ps : PortState) (u : NoticeUnit) : attnLevel ps u = .low ↔
    (headAnswered ps.window ∧ ps.responseAttn = true) ∨ ((u.queue ≠ [] ∨ u.owed ≠ []) ∧ ps.noticeAttn = true) := by
  rw [← responsesReady_pos, ← u.calls_iff]
  unfold attnLevel
  split
  · rename_i hcalls
    exact iff_of_true rfl (by simpa using hcalls)
  · rename_i hquiet
    exact iff_of_false nofun (by simpa using hquiet)

section
variable {s : State} {p : Port} {response notice : Byte}

theorem exec_attnSet_badArg (hdue : s.Due p (.attnSet response notice)) (h : twoWay? response = none ∨ twoWay? notice = none) :
    exec (.attnSet p response notice) s = .next (s.answer p .badArg .empty).settle := by
  show execAttnSet p response notice s = _
  rw [execAttnSet, onRequest_due hdue]
  split
  · rename_i hresponse hnotice
    simp [hresponse, hnotice] at h
  · rfl

/-- An ATTN_SET that is accepted sets both enables and reports the ones before (R183). -/
theorem exec_attnSet_passed {r n : Bool} (hdue : s.Due p (.attnSet response notice)) (hr : twoWay? response = some r)
    (hn : twoWay? notice = some n) :
    exec (.attnSet p response notice) s =
      .next (s.setPort p { s.ports.get p with
        window := answerOldest .ok (.attn (s.ports.get p).responseAttn (s.ports.get p).noticeAttn) (s.ports.get p).window
        responseAttn := r
        noticeAttn := n }).settle := by
  show execAttnSet p response notice s = _
  simp only [execAttnSet, onRequest_due hdue, hr, hn, State.answer_setPort]

/-- STATUS reports the state before its own answer (R184, log 10). -/
theorem exec_status_due (hdue : s.Due p .status) :
    exec (.status p) s = .next (s.answer p .ok (s.statusBody p)).settle := by
  show execStatus p s = _
  rw [execStatus, onRequest_due hdue]

end

/-- Settles O60: ATTN_SET is refused or sets its port alone, STATUS only answers, and the line follows its two inputs. -/
theorem attentionFollowsItsInputs : Obligations.AttentionFollowsItsInputs := by
  refine ⟨⟨rfl, rfl, fun s p response notice hdue => ⟨fun hbad => ?_, fun r n hr hn => ?_⟩, fun s p hdue => ?_⟩,
    attnLevel_eq_low⟩
  · rw [← twoWay?_eq_none, ← twoWay?_eq_none] at hbad
    exact onlyReplies_of (exec_attnSet_badArg hdue hbad)
  · exact ⟨_, exec_attnSet_passed hdue ((twoWay?_eq_some response r).2 hr) ((twoWay?_eq_some notice n).2 hn), rfl,
      State.ports_setPort_self s p _, fun q hq => State.ports_setPort_other s p _ hq⟩
  · exact onlyReplies_of (exec_status_due hdue)

end Sys2Proof.Machine

namespace Sys2Proof.Machine

/-! ### The end of an exchange (R171 to R175, R179, R181) -/

section
variable {s : State} {p : Port} {bytes : List Byte}

/-- The end of an exchange under way, as one port set. -/
theorem exec_exchangeEnd_due {x : Exchange} (hheld : s.held = false) (hx : (s.ports.get p).exchange = some x) (spare : Fin 8) :
    exec (.exchangeEnd p bytes spare) s = .next (s.endExchange p x bytes spare).settle := by
  show execExchangeEnd p bytes spare s = _
  simp only [execExchangeEnd, hx, Option.isSome_some, event_due hheld]

/-- A faulty exchange sets DROPPED and ends (R171). -/
theorem State.endExchange_faulty (x : Exchange) {spare : Fin 8} (h : 8 * bytes.length + spare.val ≠ 512) :
    s.endExchange p x bytes spare = s.setPort p { s.ports.get p with exchange := none, droppedFlag := true } := by
  have hfaulty : bytes.length ≠ 64 ∨ spare ≠ 0 := by
    refine Decidable.not_and_iff_not_or_not.1 ?_
    rintro ⟨hlength, rfl⟩
    exact h (by rw [hlength]; rfl)
  refine if_pos ?_
  rw [Bool.or_eq_true, decide_eq_true_iff, decide_eq_true_iff]
  exact hfaulty

/-- A complete exchange delivers, and then receives (R173). -/
theorem State.endExchange_complete (x : Exchange) (h : bytes.length = 64) :
    s.endExchange p x bytes 0 = s.setPort p (s.receive p ((s.ports.get p).deliver x) bytes) := by
  refine if_neg ?_
  simp [h, Config.exchangeBytes]

/-- What an inbound frame leaves of a port: no request, no place, or one more entry (R173). -/
theorem State.receive_eq (s : State) (p : Port) (ps : PortState) (bytes : List Byte) :
    s.receive p ps bytes =
      { ps with
        window := if bytes.getD 0 0 = 0 ∨ (bytes.getD 0 0 ≠ 0 ∧ 4 ≤ ps.window.length) then ps.window
          else ps.window ++ [s.examine p bytes]
        droppedFlag := if bytes.getD 0 0 ≠ 0 ∧ 4 ≤ ps.window.length then true else ps.droppedFlag } := by
  unfold State.receive
  have hsize : Config.windowSize = 4 := rfl
  rw [hsize]
  by_cases hidle : bytes.getD 0 0 = 0
  · simp only [hidle, if_true, true_or, ne_eq, not_true_eq_false, false_and, if_false]
  · by_cases hfull : 4 ≤ ps.window.length
    · simp only [hidle, hfull, if_false, if_true, ne_eq, not_false_eq_true, true_and, or_true]
    · simp only [hidle, hfull, if_false, and_false, or_false]

end

/-- The configuration requests (R175). -/
theorem Code.isConfig_iff (code : Code) : code.isConfig = true ↔ code ∈
    ([.define, .undefine, .tableReset, .orderDefine, .orderArm, .orderDisarm, .orderFire, .orderClear, .scanDefine, .scanArm,
      .scanStart, .scanStop, .scanDisarm, .tickSet, .timerSet, .timerStop, .lineSet, .outputBind, .configGrant, .configRevoke,
      .forcePortReset] : List Code) := by
  cases code <;> decide

/-! ### The checks of an inbound frame (R174, R175) -/

section
variable {s : State} {p : Port} {bytes : List Byte} {len : Nat}

/-- Check 1: a LEN that no frame has. -/
theorem State.examine_outside (hlen : (bytes.getD 0 0).toNat = len) (h : len < 5 ∨ 64 < len) :
    s.examine p bytes = .answered (bytes.getD 1 0) .badLength .empty := by
  subst hlen
  refine if_pos ?_
  simpa [Config.exchangeBytes] using h

theorem len_within (hleast : 5 ≤ len) (hmost : len ≤ 64) : (decide (len < 5) || decide (Config.exchangeBytes < len)) = false := by
  simp [Config.exchangeBytes, Nat.not_lt.2 hleast, Nat.not_lt.2 hmost]

/-- The bytes before the CRC field of a frame are those of the exchange. -/
theorem take_take_frame (bytes : List Byte) (len : Nat) : (bytes.take len).take (len - 2) = bytes.take (len - 2) := by
  rw [List.take_take, Nat.min_eq_left (Nat.sub_le len 2)]

/-- Check 2: a CRC field that is not the CRC of the bytes before it. -/
theorem State.examine_badCheck (hlen : (bytes.getD 0 0).toNat = len) (hleast : 5 ≤ len) (hmost : len ≤ 64)
    (hcheck : (bytes.take len).drop (len - 2) ≠ bytes2 (crc (bytes.take (len - 2)))) :
    s.examine p bytes = .answered (bytes.getD 1 0) .badCheck .empty := by
  unfold State.examine
  simp only [hlen, len_within hleast hmost, take_take_frame, ne_eq, hcheck.symm, not_false_eq_true, Bool.false_eq_true, if_false,
    if_true]

section
variable (hlen : (bytes.getD 0 0).toNat = len) (hleast : 5 ≤ len) (hmost : len ≤ 64)
  (hcheck : (bytes.take len).drop (len - 2) = bytes2 (crc (bytes.take (len - 2))))
include hlen hleast hmost hcheck

/-- Check 3: a CODE byte that names no request. -/
theorem State.examine_badCode (hcode : code? (bytes.getD 2 0) = none) :
    s.examine p bytes = .answered (bytes.getD 1 0) .badCode .empty := by
  unfold State.examine
  simp only [hlen, len_within hleast hmost, take_take_frame, hcheck, hcode, ne_eq, not_true_eq_false, Bool.false_eq_true, if_false]

/-- Check 4: a body that does not suit its code. -/
theorem State.examine_badBody {code : Code} (hcode : code? (bytes.getD 2 0) = some code)
    (hbody : parseBody code ((bytes.take (len - 2)).drop 3) = none) :
    s.examine p bytes = .answered (bytes.getD 1 0) .badLength .empty := by
  unfold State.examine
  simp only [hlen, len_within hleast hmost, take_take_frame, hcheck, hcode, hbody, ne_eq, not_true_eq_false, Bool.false_eq_true,
    if_false]

/-- Check 5: a configuration request is accepted from a port of the configuration set alone (R175). -/
theorem State.examine_parsed {code : Code} {r : Request} (hcode : code? (bytes.getD 2 0) = some code)
    (hbody : parseBody code ((bytes.take (len - 2)).drop 3) = some r) :
    s.examine p bytes =
      if code.isConfig = true ∧ s.config.get p = false then .answered (bytes.getD 1 0) .noRight .empty
      else .accepted (bytes.getD 1 0) r := by
  unfold State.examine
  simp only [hlen, len_within hleast hmost, take_take_frame, hcheck, hcode, hbody, ne_eq, not_true_eq_false, Bool.false_eq_true,
    if_false, Bool.and_eq_true, Bool.not_eq_true']

end

end

/-- Settles O55: the end of an exchange is one port set, by the kind of its end and by what the inbound frame finds. -/
theorem exchangeEndIsFaultyOrComplete : Obligations.ExchangeEndIsFaultyOrComplete := by
  refine ⟨fun s p bytes spare hheld hunder hfaulty => ?_, Code.isConfig_iff, fun s p bytes x hheld hx hlength => ?_,
    fun s p bytes _ => ⟨State.examine_outside rfl, fun hleast hmost => ⟨State.examine_badCheck rfl hleast hmost, fun hcheck =>
      ⟨State.examine_badCode rfl hleast hmost hcheck, fun code hcode =>
        ⟨State.examine_badBody rfl hleast hmost hcheck hcode, fun r =>
          State.examine_parsed rfl hleast hmost hcheck hcode⟩⟩⟩⟩⟩
  · obtain ⟨x, hx⟩ := Option.isSome_iff_exists.1 hunder
    have hexec := exec_exchangeEnd_due (bytes := bytes) hheld hx spare
    rw [State.endExchange_faulty x hfaulty] at hexec
    exact ⟨_, hexec, State.ports_setPort_self s p _, fun q hq => State.ports_setPort_other s p _ hq, rfl⟩
  · have hexec := exec_exchangeEnd_due (bytes := bytes) hheld hx 0
    rw [State.endExchange_complete x hlength, State.receive_eq] at hexec
    exact ⟨_, hexec, State.ports_setPort_self s p _, fun q hq => State.ports_setPort_other s p _ hq, rfl⟩

end Sys2Proof.Machine

namespace Sys2Proof.Machine

/-! ### Fields as the writers make them (R193) -/

@[simp] theorem fields_byte_cons (n : Nat) (fs : List (Nat × Nat)) : fields ((1, n) :: fs) = num1 n ++ fields fs := by
  rw [fields_cons, fields_one]

@[simp] theorem fields_half_cons (n : Nat) (fs : List (Nat × Nat)) : fields ((2, n) :: fs) = num2 n ++ fields fs := by
  rw [fields_cons, fields_two]

@[simp] theorem fields_word_cons (n : Nat) (fs : List (Nat × Nat)) :
    fields ((4, n) :: fs) = bytes4 (BitVec.ofNat 32 n) ++ fields fs := by
  rw [fields_cons, fields_four]

/-- `fields_nil` as a rule of the simp set. -/
@[simp] theorem fields_end : fields [] = [] := fields_nil

@[simp] theorem num1_toNat (b : Byte) : num1 b.toNat = [b] := by
  simp [num1]

@[simp] theorem num2_toNat (h : Half) : num2 h.toNat = bytes2 h := by
  simp [num2]

/-- A flag is the byte 00h or 01h (R193). -/
@[simp] theorem num1_flag (x : Bool) : num1 (if x = true then 1 else 0) = [flagCode x] := by
  cases x <;> rfl

/-- A list of 1-byte fields. -/
theorem fields_bytes {α : Type} (f : α → Byte) (xs : List α) : fields (xs.map fun x => (1, (f x).toNat)) = xs.map f := by
  induction xs with
  | nil => rfl
  | cons x xs ih => simp [ih]

/-- A list of 2-byte fields. -/
theorem fields_halves (hs : List Half) : fields (hs.map fun h => (2, h.toNat)) = hs.flatMap bytes2 := by
  induction hs with
  | nil => rfl
  | cons h hs ih => simp [ih]

/-! ### Records (Tables 10.4-2, 10.5-1 and 10.5-2) -/

theorem holderCode_order (n : OrderIx) : (holderCode (some (.order n))).toNat = 0x20 + n.val := by
  revert n
  decide

theorem holderCode_lt (w : Option Party) : (holderCode w).toNat < 64 := by
  rcases w with _ | p | _ | n
  · decide
  · cases p <;> decide
  · decide
  · rw [holderCode_order]
    omega

/-- A port set has bits 0 to 3 for A to D. -/
theorem toNat_portSetCode (v : PortSet) : (portSetCode v).toNat =
    (if v.a then 1 else 0) + (if v.b then 2 else 0) + (if v.c then 4 else 0) + (if v.d then 8 else 0) := by
  obtain ⟨a, b, c, d⟩ := v
  revert a b c d
  decide

/-- The last byte of a READ result: the quality in bits 7 and 6, and a holder code, which is below 64 (R198). -/
theorem num1_quality_holder (q : Quality) (w : Option Party) :
    num1 ((qualityCode q).toNat * 64 + (holderCode w).toNat) = [(qualityCode q <<< 6) ||| holderCode w] := by
  have hsmall := holderCode_lt w
  generalize holderCode w = h at hsmall ⊢
  revert h
  cases q <;> decide +kernel

theorem readResultBytes_fields (r : ReadResult) : readResultBytes r =
    fields [(1, (statusCode r.status).toNat), (4, r.value.toNat), (2, r.seq.toNat),
      (1, (qualityCode r.quality).toNat * 64 + (holderCode r.holder).toNat)] := by
  simp [readResultBytes, num1_quality_holder]

theorem writeResultBytes_fields (r : WriteResult) : writeResultBytes r =
    fields [(1, (statusCode r.status).toNat), (4, r.value.toNat), (2, r.seq.toNat)] := by
  simp [writeResultBytes]

/-- The number that stands for a subject in a notice record (R193). -/
def Subject.field : Subject → Nat
  | .point i => i.val
  | .order m => 0x0200 + m.val

theorem subjectField_eq (x : Subject) : subjectField x = num2 x.field := by
  cases x <;> rfl

theorem noticeBytes_fields (n : Notice) : noticeBytes n =
    fields [(2, n.subject.field), (2, n.causes.toNat)] ++
      (match n.state with
       | .point value quality seq => fields [(4, value.toNat), (1, (qualityCode quality).toNat), (2, seq.toNat)]
       | .order remaining phase missed => fields [(4, remaining), (1, (orderStateCode phase).toNat), (2, missed)]) ++
      fields [(1, n.merged)] := by
  obtain ⟨subject, causes, state, merged⟩ := n
  cases state with
  | point => simp [noticeBytes, subjectField_eq, subjectStateBytes, num2]
  | order => simp [noticeBytes, subjectField_eq, subjectStateBytes, num2]

/-- The fields of a trigger source as a frame carries it, by its class and number (R193). -/
def Trigger.layout : Trigger → List (Nat × Nat)
  | .request => [(1, 0), (2, 0)]
  | .line n => [(1, 1), (2, n.val)]
  | .timer n => [(1, 2), (2, n.val)]
  | .chain n => [(1, 3), (2, n.val)]
  | .scanEnd => [(1, 4), (2, 0)]
  | .point i => [(1, 5), (2, i.val)]

theorem triggerBytes_layout (t : Trigger) : triggerBytes (triggerArgs t) = fields t.layout := by
  cases t with
  | request | scanEnd => rfl
  | line | timer | chain | point => simp [triggerBytes, triggerArgs, Trigger.layout, num1, num2]

/-- The source step and the wrap count of an order (R199). -/
def SourceStep.layout : SourceStep → List (Nat × Nat)
  | .fixed => [(1, 0), (1, 0)]
  | .step => [(1, 1), (1, 0)]
  | .stepWrap w => [(1, 2), (1, w)]

/-- The transform of an order, its gain, its offset and its threshold (R199). -/
def Transform.layout : Transform → List (Nat × Nat)
  | .copy => [(1, 0), (2, 0), (4, 0), (4, 0)]
  | .scale gain offset => [(1, 1), (2, gain.toNat), (4, offset.toNat), (4, 0)]
  | .invert => [(1, 2), (2, 0), (4, 0), (4, 0)]
  | .compare threshold => [(1, 3), (2, 0), (4, 0), (4, threshold.toNat)]

/-! The fields that only one source step or one transform has, 0 for the others (R199). -/

def SourceStep.wrapField : SourceStep → Nat
  | .stepWrap w => w
  | _ => 0

def Transform.gainField : Transform → BitVec 16
  | .scale gain _ => gain
  | _ => 0

def Transform.offsetField : Transform → Word
  | .scale _ offset => offset
  | _ => 0

def Transform.thresholdField : Transform → Word
  | .compare threshold => threshold
  | _ => 0

theorem orderDefBytes_eq (d : OrderDef) : orderDefBytes d =
    triggerBytes (triggerArgs d.trigger) ++ pointField d.source ++ num1 d.runLength ++ pointField d.dest ++
      [sourceStepCode d.step] ++ num1 d.step.wrapField ++ [transformCode d.transform] ++ bytes2 d.transform.gainField ++
      bytes4 d.transform.offsetField ++ bytes4 d.transform.thresholdField ++ num2 d.runs ++ [chainCode d.chain] := rfl

theorem fields_sourceStep (m : SourceStep) : fields m.layout = [sourceStepCode m] ++ num1 m.wrapField := by
  cases m <;> simp [SourceStep.layout, SourceStep.wrapField, sourceStepCode, num1]

theorem fields_transform (m : Transform) : fields m.layout =
    [transformCode m] ++ bytes2 m.gainField ++ bytes4 m.offsetField ++ bytes4 m.thresholdField := by
  cases m <;> simp [Transform.layout, Transform.gainField, Transform.offsetField, Transform.thresholdField, transformCode, num1,
    num2]

/-- An order slot that is EMPTY: no owner, and every field 0 or none (R118, R199, log 16). -/
theorem emptyOrderBytes_fields : emptyOrderBytes = fields [(1, 0), (23, 0), (1, 0xFF), (15, 0)] := rfl

/-- The number that stands for a chain line, FFh for none. -/
def chainField : Option (Fin 8) → Nat
  | none => 0xFF
  | some n => n.val

theorem num1_chainField (c : Option (Fin 8)) : num1 (chainField c) = [chainCode c] := by
  cases c <;> rfl

theorem orderDefBytes_fields (d : OrderDef) : orderDefBytes d = triggerBytes (triggerArgs d.trigger) ++
    fields [(2, d.source.val), (1, d.runLength), (2, d.dest.val)] ++ fields d.step.layout ++ fields d.transform.layout ++
    fields [(2, d.runs), (1, chainField d.chain)] := by
  rw [orderDefBytes_eq, fields_sourceStep, fields_transform]
  simp [pointField, num1_chainField]

theorem orderLiveBytes_fields (o : Order) (position : Nat) (flag : RunFlag) : orderLiveBytes o position flag = fields
    [(2, o.remaining), (1, o.pending), (2, o.missed), (4, o.runsDone.toNat), (2, o.faults), (2, o.base.val), (1, position),
      (1, (runFlagCode flag).toNat)] := by
  simp [orderLiveBytes, pointField]

theorem scannerBytes_fields (sc : Scanner) : scannerBytes (some sc) =
    fields [(1, (scanStateCode (some sc.phase)).toNat), (1, (portCode sc.owner).toNat), (1, (scanModeCode sc.mode).toNat)] ++
      triggerBytes (triggerArgs sc.trigger) ++
      fields [(1, sc.entries.length), (1, sc.current), (1, if sc.pendingPass then 1 else 0), (4, sc.passCount.toNat),
        (2, sc.missed)] := by
  simp [scannerBytes]

/-! ### Windows (R177) -/

section
variable {before : List Entry} (hanswered : ∀ e ∈ before, Entry.isAnswered e = true)
include hanswered

/-- Behind answered entries the oldest ACCEPTED entry gives place to another. -/
theorem replaceOldest_behind (f : Byte → Entry) (seq : Byte) (r : Request) (after : List Entry) :
    replaceOldest f (before ++ .accepted seq r :: after) = before ++ f seq :: after := by
  induction before with
  | nil => rfl
  | cons e before ih =>
    obtain ⟨he, hbefore⟩ := List.forall_mem_cons.1 hanswered
    cases e with
    | accepted => cases he
    | answered => exact congrArg (List.cons _) (ih hbefore)

theorem oldestAccepted_answered : oldestAccepted before = none := by
  refine List.findSome?_eq_none_iff.2 fun e he => ?_
  cases e with
  | accepted => cases hanswered _ he
  | answered => rfl

theorem oldestAccepted_behind (seq : Byte) (r : Request) (after : List Entry) :
    oldestAccepted (before ++ .accepted seq r :: after) = some r := by
  have hbefore := oldestAccepted_answered hanswered
  unfold oldestAccepted at hbefore ⊢
  rw [List.findSome?_append, hbefore]
  rfl

end

/-- Settles O38: every code, record and body is the fields of its row, and a window is answered at its oldest ACCEPTED entry. -/
theorem responsesAreLaidOut : Obligations.ResponsesAreLaidOut := by
  refine ⟨⟨rfl, ⟨rfl, rfl, fun _ => rfl, rfl, holderCode_order, rfl, rfl, rfl, rfl, rfl, rfl, rfl, rfl, toNat_portSetCode⟩,
    ⟨rfl, fun _ _ => rfl, noticeBytes_fields⟩, triggerBytes_layout, orderDefBytes_fields, orderLiveBytes_fields, ?_,
    length_outboundFrame, ?_⟩,
    fun before after seq r hanswered => oldestAccepted_behind hanswered seq r after,
    fun window hanswered => oldestAccepted_answered hanswered, fun _ _ => rfl⟩
  · refine ⟨rfl, fun rs => ?read, fun rs => ?write, ?_, fun n sts => ?list, fun n => ⟨?all, ?_⟩, ?_, ?_, ?_, fun ns => ?notices, ?_,
      ?_, ?_, fun n position flag => ?emptyOrder, ?_, ?_, ?scanner, rfl, ?_, ?_, ?_, ?_, fun point safe invert level => ?output,
      ?_⟩
    case read => exact congrArg (fun f => rs.flatMap f) (funext readResultBytes_fields)
    case write => exact congrArg (fun f => rs.flatMap f) (funext writeResultBytes_fields)
    case list => simp [bodyBytes, fields_bytes, num1]
    case all => simp [bodyBytes, num1]
    case notices => simp [bodyBytes]
    case emptyOrder => simp [bodyBytes, emptyOrderBytes_fields, orderStateCode, num1]
    case scanner => exact scannerBytes_fields
    case output =>
      cases point with
      | none => simp [bodyBytes, bindField, num2]
      | some => simp [bodyBytes, bindField, pointField]
    all_goals
      intros
      simp [bodyBytes, pointField]
  · intro before after seq r st body hanswered
    rw [answerOldest_eq]
    exact replaceOldest_behind hanswered _ seq r after

end Sys2Proof.Machine

namespace Sys2Proof.Machine

/-! ### Request bodies as fields (Table 10.3-2) -/

theorem writeBytes_fields (e : WriteArgs) : bytes2 e.point ++ bytes4 e.value ++ [flagCode e.suspect] =
    fields [(2, e.point.toNat), (4, e.value.toNat), (1, if e.suspect then 1 else 0)] := by
  simp

theorem putBytes_fields (e : PutArgs) : bytes2 e.point ++ bytes4 e.value = fields [(2, e.point.toNat), (4, e.value.toNat)] := by
  simp

theorem scanEntryBytes_fields (e : ScanEntryArgs) : scanEntryBytes e =
    fields [(1, e.input.toNat), (2, e.dest.toNat), (2, e.gain.toNat), (4, e.offset.toNat), (1, e.rail.toNat)] := by
  simp [scanEntryBytes]

/-! ### The lengths that are read (R174, R197) -/

/-- The length of the body of a code that has no list of entries (Table 10.3-2). -/
def Code.bodyLength? : Code → Option Nat
  | .tableReset | .batchOpen | .batchDiscard | .scanArm | .scanStart | .scanStop | .scanDisarm | .scanQuery | .portReset
  | .status => some 0
  | .batchCommit | .fetch | .orderArm | .orderDisarm | .orderFire | .orderQuery | .orderClear | .timerStop | .forcePortReset
  | .configGrant | .configRevoke => some 1
  | .undefine | .withdraw | .unsubscribe | .lineSet | .attnSet => some 2
  | .tickSet => some 3
  | .timerSet => some 4
  | .outputBind => some 5
  | .subscribe => some 7
  | .define => some 19
  | .orderDefine => some 25
  | .read | .write | .claim | .release | .renew | .batchPut | .scanDefine => none

theorem bodyLength?_rows : ∀ row ∈
    ([(.define, 19), (.undefine, 2), (.tableReset, 0), (.withdraw, 2), (.batchOpen, 0), (.batchCommit, 1), (.batchDiscard, 0),
      (.subscribe, 7), (.unsubscribe, 2), (.fetch, 1), (.orderDefine, 25), (.orderArm, 1), (.orderDisarm, 1), (.orderFire, 1),
      (.orderQuery, 1), (.orderClear, 1), (.scanArm, 0), (.scanStart, 0), (.scanStop, 0), (.scanDisarm, 0), (.scanQuery, 0),
      (.tickSet, 3), (.timerSet, 4), (.timerStop, 1), (.lineSet, 2), (.outputBind, 5), (.portReset, 0), (.forcePortReset, 1),
      (.configGrant, 1), (.configRevoke, 1), (.attnSet, 2), (.status, 0)] : List (Code × Nat)), row.1.bodyLength? = some row.2 := by
  decide

theorem exists_ofFn {α : Type} {n : Nat} {l : List α} (h : l.length = n) : ∃ f : Fin n → α, List.ofFn f = l := by
  subst h
  exact ⟨fun i => l[i.val], List.ofFn_getElem⟩

section
variable {c : Code} {n : Nat} (hn : c.bodyLength? = some n)
include hn

/-! A body given byte by byte is read, or not, by its number of bytes alone. -/

theorem parseBody_exact (f : Fin n → Byte) : (parseBody c (List.ofFn f)).isSome = true := by
  cases c <;> cases hn <;> rfl

theorem parseBody_short : ∀ m, m < n → ∀ f : Fin m → Byte, parseBody c (List.ofFn f) = none := by
  cases c <;> cases hn
  all_goals simp only [Nat.forall_lt_succ_right, Nat.not_lt_zero, false_implies, implies_true, true_and]
  all_goals and_intros
  all_goals exact fun _ => rfl

theorem parseBody_long (f : Fin (n + 1) → Byte) (rest : List Byte) : parseBody c (List.ofFn f ++ rest) = none := by
  cases c <;> cases hn <;> rfl

/-- A body without a list of entries is read exactly when it has the length of its code. -/
theorem parseBody_isSome_iff_length (body : List Byte) : (parseBody c body).isSome = true ↔ body.length = n := by
  rcases Nat.lt_trichotomy body.length n with hless | hequal | hmore
  · obtain ⟨f, hf⟩ := exists_ofFn (l := body) rfl
    rw [← hf, parseBody_short hn _ hless, hf]
    exact iff_of_false nofun (Nat.ne_of_lt hless)
  · obtain ⟨f, hf⟩ := exists_ofFn hequal
    rw [← hf]
    exact iff_of_true (parseBody_exact hn f) List.length_ofFn
  · have htake : (body.take (n + 1)).length = n + 1 := List.length_take_of_le hmore
    obtain ⟨f, hf⟩ := exists_ofFn htake
    have hnone : parseBody c body = none := by
      rw [← List.take_append_drop (n + 1) body, ← hf]
      exact parseBody_long hn f _
    rw [hnone]
    exact iff_of_false nofun (Nat.ne_of_gt hmore)

end

section
variable {α : Type} {parse : List Byte → Option (List α)} {entry : Nat}
  (hparse : ∀ b k, (∃ l, parse b = some l ∧ l.length = k) ↔ b.length = k * entry)
  {f : List α → Request} {least most : Nat} (hf : ∀ l, (f l).wf = within least most l.length)
include hparse hf

/-- Behind a fixed part, a list of entries is read exactly when it is a whole number of entries within its bounds. -/
theorem counted_isSome (fixed : Nat) {body rest : List Byte} (hlength : body.length = fixed + rest.length) :
    ((parse rest).bind fun l => checked (f l)).isSome = true ↔
      ∃ k, least ≤ k ∧ k ≤ most ∧ body.length = fixed + k * entry := by
  rw [bind_checked_isSome _ _ least most hf]
  simp only [hparse, hlength, Nat.add_left_cancel_iff]

end

/-- A body shorter than the fixed part of its code is not read. -/
theorem parseBody_unfixed {c : Code} {fixed entry least most : Nat} {body : List Byte} (hnone : parseBody c body = none)
    (hlength : body.length < fixed) :
    (parseBody c body).isSome = true ↔ ∃ k, least ≤ k ∧ k ≤ most ∧ body.length = fixed + k * entry := by
  rw [hnone]
  refine iff_of_false nofun ?_
  rintro ⟨k, -, -, h⟩
  omega

/-- A list of points behind a selector (R42, R43). -/
theorem parseBody_selected {c : Code} {f : Byte → List Half → Request} (hempty : parseBody c [] = none)
    (hcons : ∀ sel body, parseBody c (sel :: body) = (parsePoints body).bind fun ps => checked (f sel ps))
    (hf : ∀ sel ps, (f sel ps).wf = within 0 16 ps.length) (body : List Byte) :
    (parseBody c body).isSome = true ↔ ∃ k, 0 ≤ k ∧ k ≤ 16 ∧ body.length = 1 + k * 2 := by
  cases body with
  | nil => exact parseBody_unfixed hempty Nat.one_pos
  | cons sel rest =>
    rw [hcons]
    exact counted_isSome parsePoints_length (hf sel) 1 (Nat.add_comm ..)

theorem parseBody_claim_isSome (body : List Byte) :
    (parseBody .claim body).isSome = true ↔ ∃ k, 1 ≤ k ∧ k ≤ 16 ∧ body.length = 6 + k * 2 :=
  match body with
  | l0 :: l1 :: mode :: wait :: w0 :: w1 :: rest =>
    counted_isSome parsePoints_length (f := fun ps => .claim ⟨half l0 l1, mode, wait ≠ 0, half w0 w1, ps⟩) (fun _ => rfl) 6
      (Nat.add_comm rest.length 6)
  | [] | [_] | [_, _] | [_, _, _] | [_, _, _, _] | [_, _, _, _, _] => parseBody_unfixed rfl (by simp)

theorem parseBody_scanDefine_isSome (body : List Byte) :
    (parseBody .scanDefine body).isSome = true ↔ ∃ k, 1 ≤ k ∧ k ≤ 5 ∧ body.length = 6 + k * 10 :=
  match body with
  | mode :: t0 :: t1 :: t2 :: first :: last :: rest =>
    counted_isSome parseScanEntries_length (f := fun es => .scanDefinePart ⟨mode, ⟨t0, half t1 t2⟩, first, last ≠ 0, es⟩)
      (fun _ => rfl) 6 (Nat.add_comm rest.length 6)
  | [] | [_] | [_, _] | [_, _, _] | [_, _, _, _] | [_, _, _, _, _] => parseBody_unfixed rfl (by simp)

/-! ### Flag bytes (R193, R197) -/

section
variable {flag : Byte} (hflag : flag ≠ 0)
include hflag

theorem flag_reads_set : decide (flag ≠ 0) = decide ((1 : Byte) ≠ 0) := by
  rw [decide_eq_true hflag]
  rfl

theorem parseWrites_flag : ∀ {before : List Byte} (_ : before.length % 7 = 6) (after : List Byte),
    parseWrites (before ++ flag :: after) = parseWrites (before ++ 1 :: after)
  | [p, q, a, b, c, d], _, after => by
    show (parseWrites after).map (⟨half p q, word a b c d, flag ≠ 0⟩ :: ·) = (parseWrites after).map _
    rw [flag_reads_set hflag]
  | _ :: _ :: _ :: _ :: _ :: _ :: _ :: rest, h, after => by
    have hrest : rest.length % 7 = 6 := (Nat.add_mod_right rest.length 7).symm.trans h
    exact congrArg (Option.map _) (parseWrites_flag hrest after)

theorem parseBody_write_flag {before : List Byte} (h : before.length % 7 = 6) (after : List Byte) :
    parseBody .write (before ++ flag :: after) = parseBody .write (before ++ 1 :: after) :=
  congrArg (·.bind fun es => checked (.write es)) (parseWrites_flag hflag h after)

theorem parseBody_claim_flag {before : List Byte} (h : before.length = 3) (after : List Byte) :
    parseBody .claim (before ++ flag :: after) = parseBody .claim (before ++ 1 :: after) :=
  match before, h, after with
  | [_, _, _], _, [] | [_, _, _], _, [_] => rfl
  | [l0, l1, mode], _, w0 :: w1 :: rest => by
    show (parsePoints rest).bind (fun ps => checked (.claim ⟨half l0 l1, mode, flag ≠ 0, half w0 w1, ps⟩)) = _
    rw [flag_reads_set hflag]
    rfl

theorem parseBody_batchCommit_flag (after : List Byte) :
    parseBody .batchCommit (flag :: after) = parseBody .batchCommit (1 :: after) :=
  match after with
  | [] => congrArg (fun f => some (Request.batchCommit f)) (flag_reads_set hflag)
  | _ :: _ => rfl

theorem parseBody_scanDefine_flag {before : List Byte} (h : before.length = 5) (after : List Byte) :
    parseBody .scanDefine (before ++ flag :: after) = parseBody .scanDefine (before ++ 1 :: after) :=
  match before, h with
  | [mode, t0, t1, t2, first], _ => by
    show (parseScanEntries after).bind (fun es => checked (.scanDefinePart ⟨mode, ⟨t0, half t1 t2⟩, first, flag ≠ 0, es⟩)) = _
    rw [flag_reads_set hflag]
    rfl

theorem parseBody_outputBind_flag {before : List Byte} (h : before.length = 4) (after : List Byte) :
    parseBody .outputBind (before ++ flag :: after) = parseBody .outputBind (before ++ 1 :: after) :=
  match before, h, after with
  | [n, p, q, safe], _, [] => congrArg (fun f => some (Request.outputBind ⟨n, half p q, safe, f⟩)) (flag_reads_set hflag)
  | [_, _, _, _], _, _ :: _ => rfl

end

/-! ### Frames read back (R174, R194) -/

/-- The bytes of a request frame before its CRC. -/
def frameHead (seq : Byte) (r : Request) : List Byte :=
  BitVec.ofNat 8 ((requestBody r).length + 5) :: seq :: codeByte (requestCode r) :: requestBody r

theorem requestFrame_eq (seq : Byte) (r : Request) : requestFrame seq r = frameHead seq r ++ bytes2 (crc (frameHead seq r)) := rfl

theorem length_frameHead (seq : Byte) (r : Request) : (frameHead seq r).length = (requestBody r).length + 3 := rfl

theorem length_requestFrame (seq : Byte) (r : Request) : (requestFrame seq r).length = (requestBody r).length + 5 := by
  rw [requestFrame_eq, List.length_append, length_frameHead]
  rfl

theorem length_padded {frame : List Byte} (h : frame.length ≤ 64) : (padded frame).length = 64 := by
  rw [padded, List.length_append, List.length_replicate]
  exact Nat.add_sub_cancel' h

section
variable (seq : Byte) (r : Request)

/-- The frame is the bytes of the exchange up to its LEN. -/
theorem take_padded_frame : (padded (requestFrame seq r)).take ((requestBody r).length + 5) = requestFrame seq r :=
  List.take_left' (length_requestFrame seq r)

theorem take_padded_head : (padded (requestFrame seq r)).take ((requestBody r).length + 3) = frameHead seq r := by
  rw [padded, requestFrame_eq, List.append_assoc]
  exact List.take_left' (length_frameHead seq r)

end

/-- The frame of a well-formed request that its port may send is accepted as that request (R174, R175). -/
theorem State.examine_requestFrame (s : State) (p : Port) (seq : Byte) {r : Request} (hwf : r.wf = true)
    (hsent : ∀ x, r ≠ .scanDefine x) (hright : (requestCode r).isConfig = true → s.config.get p = true) :
    s.examine p (padded (requestFrame seq r)) = .accepted seq r := by
  have hbody := length_requestBody r hwf
  have hlen : ((padded (requestFrame seq r)).getD 0 0).toNat = (requestBody r).length + 5 := by
    show (BitVec.ofNat 8 ((requestBody r).length + 5)).toNat = _
    rw [BitVec.toNat_ofNat]
    omega
  have hcheck : ((padded (requestFrame seq r)).take ((requestBody r).length + 5)).drop ((requestBody r).length + 3) =
      bytes2 (crc ((padded (requestFrame seq r)).take ((requestBody r).length + 3))) := by
    rw [take_padded_frame, take_padded_head, requestFrame_eq]
    exact List.drop_left' (length_frameHead seq r)
  have hread : parseBody (requestCode r) (((padded (requestFrame seq r)).take ((requestBody r).length + 3)).drop 3) = some r := by
    rw [take_padded_head]
    exact parseBody_requestBody r hwf hsent
  rw [State.examine_parsed hlen (Nat.le_add_left ..) (by omega) hcheck (code?_codeByte _) hread, if_neg]
  · rfl
  · rintro ⟨hconfig, houtside⟩
    exact Bool.false_ne_true (houtside.symm.trans (hright hconfig))

/-- Settles O56: codes and bodies as their rows say, the lengths and flags that are read, and every sent frame read back. -/
theorem requestFramesAreReadBack : Obligations.RequestFramesAreReadBack := by
  refine ⟨⟨rfl, code?_eq_some, fun _ _ => rfl, fun ps => (fields_halves ps).symm,
      fun es => congrArg (fun f => es.flatMap f) (funext writeBytes_fields), ?_, ?_, ?_, ?_,
      fun es => congrArg (fun f => es.flatMap f) (funext putBytes_fields), ?_, ?_, ?_, fun x => ?parts, ?_, ?_, ?_, ?_, ?_,
      fun i => ⟨?_, ?_, ?_⟩, fun n => ?oneByte, ?noBytes⟩,
    ⟨fun code length body hrow => parseBody_isSome_iff_length (bodyLength?_rows (code, length) hrow) body,
      fun code fixed entry least most body hrow => ?counted⟩,
    fun code before after flag hflag hplace => ?flags, fun s p seq r hwf hsent hright =>
      ⟨length_padded ?fits, s.examine_requestFrame p seq hwf hsent hright⟩⟩
  case counted =>
    simp only [List.mem_cons, List.not_mem_nil, or_false, Prod.mk.injEq] at hrow
    obtain ⟨rfl, rfl, rfl, rfl, rfl⟩ | ⟨rfl, rfl, rfl, rfl, rfl⟩ | ⟨rfl, rfl, rfl, rfl, rfl⟩ | ⟨rfl, rfl, rfl, rfl, rfl⟩ |
      ⟨rfl, rfl, rfl, rfl, rfl⟩ | ⟨rfl, rfl, rfl, rfl, rfl⟩ | ⟨rfl, rfl, rfl, rfl, rfl⟩ := hrow
    · exact counted_isSome parsePoints_length (f := .read) (fun _ => rfl) 0 (Nat.zero_add _).symm
    · exact counted_isSome parseWrites_length (f := .write) (fun _ => rfl) 0 (Nat.zero_add _).symm
    · exact parseBody_claim_isSome body
    · exact parseBody_selected (f := fun sel ps => .release ⟨sel, ps⟩) rfl (fun _ _ => rfl) (fun _ _ => rfl) body
    · exact parseBody_selected (f := fun sel ps => .renew ⟨sel, ps⟩) rfl (fun _ _ => rfl) (fun _ _ => rfl) body
    · exact counted_isSome parsePuts_length (f := .batchPut) (fun _ => rfl) 0 (Nat.zero_add _).symm
    · exact parseBody_scanDefine_isSome body
  case flags =>
    obtain ⟨rfl, h⟩ | ⟨rfl, h⟩ | ⟨rfl, h⟩ | ⟨rfl, h⟩ | ⟨rfl, h⟩ := hplace
    · exact parseBody_write_flag hflag h after
    · exact parseBody_claim_flag hflag h after
    · rw [List.length_eq_zero_iff.1 h]
      exact parseBody_batchCommit_flag hflag after
    · exact parseBody_scanDefine_flag hflag h after
    · exact parseBody_outputBind_flag hflag h after
  case fits =>
    rw [length_requestFrame]
    exact Nat.add_le_add_right (length_requestBody r hwf) 5
  case parts =>
    rw [← funext scanEntryBytes_fields]
    simp [requestBody, triggerBytes]
  case oneByte => simp [requestBody]
  case noBytes => simp [requestBody]
  all_goals
    intros
    simp [requestBody, triggerBytes, orderArgsBytes, fields_halves]

end Sys2Proof.Machine

namespace Sys2Proof.Machine

/-! ### The CRC of a frame (R195) -/

theorem crcBit_eq (r : BitVec 16) (bit : Bool) :
    crcBit r bit = if (r.getLsbD 15 ^^ bit) = true then (r <<< 1) ^^^ 0x1021 else r <<< 1 := by
  unfold crcBit
  rw [BitVec.msb_eq_getLsbD_last, Bool.bne_eq_xor]

/-- One more byte enters the register bit by bit, the most significant bit first. -/
theorem crc_concat (bytes : List Byte) (b : Byte) : crc (bytes ++ [b]) =
    [b.getLsbD 7, b.getLsbD 6, b.getLsbD 5, b.getLsbD 4, b.getLsbD 3, b.getLsbD 2, b.getLsbD 1, b.getLsbD 0].foldl crcBit
      (crc bytes) := by
  unfold crc
  rw [List.foldl_append]
  rfl

/-- Check 2 is the only one that answers BAD_CHECK: the checks after it have codes of their own (R174). -/
theorem State.examine_eq_badCheck_iff {s : State} {p : Port} {bytes : List Byte} {len : Nat}
    (hlen : (bytes.getD 0 0).toNat = len) (hleast : 5 ≤ len) (hmost : len ≤ 64) :
    s.examine p bytes = .answered (bytes.getD 1 0) .badCheck .empty ↔
      (bytes.take len).drop (len - 2) ≠ bytes2 (crc (bytes.take (len - 2))) := by
  refine ⟨fun hbad hcheck => ?_, State.examine_badCheck hlen hleast hmost⟩
  cases hcode : code? (bytes.getD 2 0) with
  | none =>
    rw [State.examine_badCode hlen hleast hmost hcheck hcode] at hbad
    cases hbad
  | some code =>
    cases hbody : parseBody code ((bytes.take (len - 2)).drop 3) with
    | none =>
      rw [State.examine_badBody hlen hleast hmost hcheck hcode hbody] at hbad
      cases hbad
    | some r =>
      rw [State.examine_parsed hlen hleast hmost hcheck hcode hbody] at hbad
      split at hbad <;> cases hbad

/-- The bytes of an outbound frame that its CRC covers (Table 10.2-1). -/
def outboundHead (s : State) (p : Port) (seq : Byte) (st : Status) (body : Body) : List Byte :=
  BitVec.ofNat 8 ((bodyBytes body).length + 8) :: seq :: statusCode st :: (portStatusBytes s p ++ bodyBytes body)

theorem outboundFrame_eq (s : State) (p : Port) (seq : Byte) (st : Status) (body : Body) :
    outboundFrame s p seq st body = outboundHead s p seq st body ++ bytes2 (crc (outboundHead s p seq st body)) := rfl

theorem length_outboundHead (s : State) (p : Port) (seq : Byte) (st : Status) (body : Body) :
    (outboundHead s p seq st body).length = (bodyBytes body).length + 6 := by
  have hframe := length_outboundFrame s p seq st body
  rw [outboundFrame_eq, List.length_append] at hframe
  exact Nat.add_right_cancel (m := 2) hframe

/-- Settles O57: the register bit by bit, its check value, check 2 of an inbound frame and the last two bytes of an outbound one. -/
theorem crcOfAFrame : Obligations.CrcOfAFrame :=
  ⟨rfl, crc_concat, crcBit_eq, by decide +kernel, fun _ _ _ => State.examine_eq_badCheck_iff rfl,
    fun s p seq st body => ⟨outboundHead s p seq st body, outboundFrame_eq s p seq st body, length_outboundHead s p seq st body⟩⟩

end Sys2Proof.Machine

namespace Sys2Proof.Machine

/-! ### The frame fixed at select falling (R170, R178, R180) -/

section
variable {s : State} {p : Port}

/-- The head response of the window leaves in the frame. -/
theorem frameAtSelect_answered {seq : Byte} {st : Status} {body : Body} {rest : List Entry}
    (h : (s.ports.get p).window = .answered seq st body :: rest) :
    frameAtSelect s p = (outboundFrame s p seq st body, true) := by
  unfold frameAtSelect
  rw [h]

/-- A request at the head has no response yet: the frame is idle. -/
theorem frameAtSelect_accepted {seq : Byte} {r : Request} {rest : List Entry}
    (h : (s.ports.get p).window = .accepted seq r :: rest) :
    frameAtSelect s p = (outboundFrame s p 0 .idle .empty, false) := by
  unfold frameAtSelect
  rw [h]

/-- An empty window: the frame is idle. -/
theorem frameAtSelect_nil (h : (s.ports.get p).window = []) :
    frameAtSelect s p = (outboundFrame s p 0 .idle .empty, false) := by
  unfold frameAtSelect
  rw [h]

/-- The exchange that begins at a port at select falling. -/
def State.exchangeAtSelect (s : State) (p : Port) (sck : Level) : Exchange where
  mode := spiMode sck
  frame := (frameAtSelect s p).1
  carries := (frameAtSelect s p).2
  clearsDropped := (s.ports.get p).droppedFlag
  clearsReset := (s.ports.get p).resetFlag

/-- A port under no exchange begins one, as one port set. -/
theorem exec_selectFalling_due (hheld : s.held = false) (hnone : (s.ports.get p).exchange = none) (sck : Level) :
    exec (.selectFalling p sck) s =
      .next (s.setPort p { s.ports.get p with exchange := some (s.exchangeAtSelect p sck) }).settle := by
  show execSelectFalling p sck s = _
  simp only [execSelectFalling, hnone, Option.isNone_none, event_due hheld]
  rfl

end

theorem spiMode_eq (sck : Level) : spiMode sck = if sck = .low then .mode0 else .mode3 := by
  cases sck <;> rfl

/-! ### The port status (Table 10.2-2, R196) -/

/-- The flags of the port status, in bits 3 to 6 of its second byte. -/
def statusMarks (caughtUp dropped reset config : Bool) : Byte :=
  (if caughtUp then 0 else 0x08#8) ||| (if dropped then 0x10#8 else 0) ||| (if reset then 0x20#8 else 0) |||
    (if config then 0x40#8 else 0)

/-- The flags of a port, as its status shows them. -/
def State.marksOf (s : State) (p : Port) : Byte :=
  statusMarks (s.notices.get p).owed.isEmpty (s.ports.get p).droppedFlag (s.ports.get p).resetFlag (s.config.get p)

theorem portStatusBytes_eq (s : State) (p : Port) : portStatusBytes s p =
    [BitVec.ofNat 8 (s.notices.get p).queue.length,
      BitVec.ofNat 8 (responsesReady (s.ports.get p).window) ||| s.marksOf p, s.epoch] := by
  simp only [portStatusBytes, num1, State.marksOf, statusMarks, BitVec.or_assoc, List.cons_append, List.nil_append]

theorem statusMarks_bits : ∀ caughtUp dropped reset config : Bool,
    let marks := statusMarks caughtUp dropped reset config
    marks.extractLsb' 0 3 = 0#3 ∧ marks.getLsbD 3 = !caughtUp ∧ marks.getLsbD 4 = dropped ∧ marks.getLsbD 5 = reset ∧
      marks.getLsbD 6 = config ∧ marks.getLsbD 7 = false := by
  decide

section
variable {count : Nat} (hcount : count < 8) {marks : Byte}
include hcount

/-- A count below 8 is read back from bits 0 to 2, when the flags leave those alone. -/
theorem extract_count_or_marks (hmarks : marks.extractLsb' 0 3 = 0#3) :
    ((BitVec.ofNat 8 count ||| marks).extractLsb' 0 3).toNat = count := by
  rw [BitVec.extractLsb'_or, hmarks, BitVec.or_zero, BitVec.extractLsb'_toNat, BitVec.toNat_ofNat, Nat.shiftRight_zero]
  omega

/-- A count below 8 does not reach the bits from 3 on. -/
theorem getLsbD_count_or_marks {k : Nat} (hk : 3 ≤ k) : (BitVec.ofNat 8 count ||| marks).getLsbD k = marks.getLsbD k := by
  have hbelow : count < 2 ^ k := Nat.lt_of_lt_of_le hcount (Nat.pow_le_pow_right (Nat.succ_pos 1) hk)
  rw [BitVec.getLsbD_or, BitVec.getLsbD_ofNat, Nat.testBit_lt_two_pow hbelow, Bool.and_false, Bool.false_or]

end

/-! ### The bytes driven (R170, R171) -/

theorem Exchange.outByte_of_getElem? {x : Exchange} {k : Nat} {b : Byte} (h : x.frame[k]? = some b) : x.outByte k = b := by
  rw [Exchange.outByte, List.getD_eq_getElem?_getD, h]
  rfl

theorem Exchange.outByte_past {x : Exchange} {k : Nat} (h : x.frame.length ≤ k) : x.outByte k = 0 :=
  List.getD_eq_default _ _ h

/-- Settles O54: the exchange that begins, by the head of the window; the places of the port status; the bytes driven. -/
theorem selectFixesTheFrame : Obligations.SelectFixesTheFrame := by
  refine ⟨fun s p sck hheld hnone => ?_, fun s p => ⟨fun _ _ _ => rfl, fun hqueue hwindow => ?_⟩,
    fun x k => ⟨fun _ => Exchange.outByte_of_getElem?, Exchange.outByte_past⟩⟩
  · exact ⟨_, s.exchangeAtSelect p sck, exec_selectFalling_due hheld hnone sck, State.ports_setPort_self s p _,
      fun q hq => State.ports_setPort_other s p _ hq, rfl, spiMode_eq sck, rfl, rfl,
      fun seq st body rest h => by simp [State.exchangeAtSelect, frameAtSelect_answered h],
      fun seq r rest h => by simp [State.exchangeAtSelect, frameAtSelect_accepted h],
      fun h => by simp [State.exchangeAtSelect, frameAtSelect_nil h]⟩
  · have hready : responsesReady (s.ports.get p).window < 8 :=
      ((List.takeWhile_sublist _).length_le.trans hwindow).trans_lt (by decide)
    obtain ⟨hclear, howed, hdropped, hreset, hconfig, hspare⟩ := statusMarks_bits (s.notices.get p).owed.isEmpty
      (s.ports.get p).droppedFlag (s.ports.get p).resetFlag (s.config.get p)
    have hflag {k : Nat} (hk : 3 ≤ k) := getLsbD_count_or_marks hready (marks := s.marksOf p) hk
    refine ⟨_, _, portStatusBytes_eq s p, ?_, extract_count_or_marks hready hclear, ?_, (hflag (by decide)).trans hdropped,
      (hflag (by decide)).trans hreset, (hflag (by decide)).trans hconfig, (hflag (by decide)).trans hspare⟩
    · rw [BitVec.toNat_ofNat]
      omega
    · rw [(hflag (by decide)).trans howed, Bool.not_eq_true', List.isEmpty_eq_false_iff]

end Sys2Proof.Machine

/-! PROOFS. The queue: what a step takes from it, and that no command stops the part or changes it. -/

namespace Sys2Proof.Machine

/-! ### A step, by the queue (log 3) -/

theorem step_of_pending_nil {s : State} (h : s.pending = []) : step s = .next s := by
  simp only [step, h]

theorem step_of_pending_cons {c : Instr} {rest : List Instr} {s : State} (h : s.pending = c :: rest) :
    step s = exec c { s with pending := rest } := by
  simp only [step, h]

/-- Settles O1: by the two forms of the queue. -/
theorem stepRunsFrontCommand : Obligations.StepRunsFrontCommand :=
  ⟨fun _ _ _ => step_of_pending_cons, fun _ => step_of_pending_nil⟩

/-! ### Every command ends (log 2) -/

/-- An event ends in a next state, due or not. -/
theorem event_ends_next (due : Bool) (s : State) (f : State → State) : ∃ t, event due s f = .next t := by
  unfold event
  split
  · exact ⟨s, rfl⟩
  · exact ⟨(f s).settle, rfl⟩

/-- So does a request, whose execution is one event (R177, log 1). -/
theorem onRequest_ends_next (p : Port) (r : Request) (s : State) (f : State → State) : ∃ t, onRequest p r s f = .next t :=
  event_ends_next _ s f

/-- COLD_RESET_END ends in a next state, whether the part is held in reset or not. -/
theorem exec_coldResetEnd_ends_next (pins : BitVec 8) (s : State) : ∃ t, exec (.coldResetEnd pins) s = .next t := by
  show ∃ t, execColdResetEnd pins s = .next t
  unfold execColdResetEnd
  split
  · exact ⟨(s.leaveReset pins).settle, rfl⟩
  · exact ⟨s, rfl⟩

/-- No command stops the part: the two commands of cold reset always answer, and every other command is one event, of the part
itself or of a request. -/
theorem exec_ends_next (c : Instr) (s : State) : ∃ t, exec c s = .next t := by
  cases c with
  | coldReset => exact ⟨_, rfl⟩
  | coldResetEnd pins => exact exec_coldResetEnd_ends_next pins s
  | selectFalling | exchangeEnd | tick | tickAgeing | pointStale | claimArbiterTick | leaseLapse | waitExpiry | timerTick
  | timerExpiry | lineEdge | orderCopy | conversionCompletion =>
    dsimp only [exec]
    exact event_ends_next _ s _
  | _ =>
    dsimp only [exec]
    exact onRequest_ends_next _ _ s _

/-! ### The queue is the model's own (log 3) -/

/-- What a command can change is never the queue. -/
theorem putBack_pending (c : Instr) (s t : State) : (putBack c s t).pending = t.pending := by
  cases c <;> rfl

theorem exec_pending {c : Instr} {s t : State} (h : exec c s = .next t) : t.pending = s.pending :=
  calc
    t.pending = (putBack c s t).pending := (putBack_pending c s t).symm
    _ = s.pending := congrArg State.pending (exec_putBack h)

/-- Settles O2: no command stops the part, and the footprint of every command leaves the queue out. -/
theorem everyCommandEndsInNext : Obligations.EveryCommandEndsInNext := by
  intro c s
  obtain ⟨t, ht⟩ := exec_ends_next c s
  exact ⟨t, ht, exec_pending ht⟩

end Sys2Proof.Machine

/-! PROOFS. Claims: CLAIM check by check, RELEASE, RENEW and WITHDRAW, and what a point passes to when it loses its holder. -/

namespace Sys2Proof.Machine

/-! ### Checks of a list (R37, R38, R48) -/

/-- A search through a list ends at the first element that gives a result. -/
theorem findSome?_first {α β : Type} {f : α → Option β} {before after : List α} {x : α} {y : β}
    (hbefore : ∀ z ∈ before, f z = none) (hx : f x = some y) : (before ++ x :: after).findSome? f = some y := by
  rw [List.findSome?_append, List.findSome?_eq_none_iff.2 hbefore, Option.none_or, List.findSome?_cons, hx]

/-- Fields read as points name those points. -/
theorem names_of_allSome {fields : List Half} {ixs : List PointIx} (h : allSome pointIx? fields = some ixs) :
    Names fields ixs := by
  obtain ⟨hlength, hread⟩ := (allSome_eq_some pointIx? fields ixs).1 h
  refine List.ext_getElem (by simpa using hlength) fun k hk hk' => ?_
  rw [List.getElem_map, List.getElem_map]
  rw [List.length_map] at hk hk'
  have hmem : (fields[k], ixs[k]) ∈ fields.zip ixs := by
    rw [List.mem_iff_getElem]
    exact ⟨k, by simp [hk, hk'], by simp⟩
  exact (pointIx?_eq_some _ _).1 (hread _ hmem)

/-- Fields name a point twice when the points repeat. -/
theorem Names.nodup_iff {fields : List Half} {ixs : List PointIx} (h : Names fields ixs) : fields.Nodup ↔ ixs.Nodup := by
  rw [← List.nodup_map_iff (f := BitVec.toNat) (fun _ _ => BitVec.eq_of_toNat_eq), h, List.nodup_map_iff Fin.val_injective]

section
variable {s : State} {p : Port} {args : ClaimArgs} {ixs before after : List PointIx} {mode : ClaimMode} {i : PointIx} {pt : Point}
  {w : Party}

/-! ### CLAIM, check by check (R36 to R38) -/

/-- A CLAIM that is due with arguments that fail a check of R36. -/
theorem exec_claim_badArg (hdue : s.Due p (.claim args))
    (hbad : (∃ f ∈ args.points, 512 ≤ f.toNat) ∨ ¬ args.points.Nodup ∨ 1 < args.mode.toNat ∨
      (args.wait = true ∧ args.waitLimit = 0)) :
    exec (.claim p args) s = .next (s.answer p .badArg .empty).settle := by
  show execClaim p args s = _
  rw [execClaim, onRequest_due hdue]
  split
  · rename_i ixs mode hixs hmode
    refine congrArg (fun x : State => Host.Outcome.next x.settle) (if_pos ?_)
    rcases hbad with ⟨f, hf, hbig⟩ | hrepeat | hcode | ⟨hwait, hlimit⟩
    · rw [allSome_eq_none hf ((pointIx?_eq_none f).2 hbig)] at hixs
      cases hixs
    · rw [(names_of_allSome hixs).nodup_iff] at hrepeat
      simp [hrepeat]
    · rw [(claimMode?_eq_none _).2 hcode] at hmode
      cases hmode
    · simp [hwait, hlimit]
  · rfl

/-- A CLAIM that is due with arguments that pass R36 goes through R37 to R41. -/
theorem exec_claim_passed (hdue : s.Due p (.claim args)) (hargs : ClaimArgsPass args ixs mode) {u : State} {status : Status}
    {body : Body} (htake : s.takeClaim p args mode ixs = (u, status, body)) :
    exec (.claim p args) s = .next (u.answer p status body).settle := by
  obtain ⟨hnames, hnodup, hmode, hwait⟩ := hargs
  have hgood : (!ixs.Nodup || (args.wait && args.waitLimit = 0)) = false := by
    cases hflag : args.wait <;> simp_all
  show execClaim p args s = _
  rw [execClaim, onRequest_due hdue, allSome_pointIx hnames, (claimMode?_eq_some _ mode).2 hmode]
  simp only [hgood, htake, Bool.false_eq_true, if_false]

/-- R37 stops a claim at the first listed point that is not open to the port: here one that is not defined. -/
theorem State.takeClaim_notDefined (hbefore : ∀ j ∈ before, s.Claimable p j) (hslot : s.slot i = none) :
    s.takeClaim p args mode (before ++ i :: after) = (s, .notDefined, .claim i none 0) := by
  have hbarrier : s.claimBarrier p (before ++ i :: after) = some (i, .notDefined) :=
    findSome?_first (fun j hj => by obtain ⟨pt, hpt, hright⟩ := hbefore j hj; simp [Option.mem_def.1 hpt, hright])
      (by simp [hslot])
  simp [State.takeClaim, hbarrier]

/-- The same at a point whose rights leave the port out. -/
theorem State.takeClaim_noRight (hbefore : ∀ j ∈ before, s.Claimable p j) (hpt : s.slot i = some pt)
    (hright : pt.defn.rights.hasPort p = false) :
    s.takeClaim p args mode (before ++ i :: after) = (s, .noRight, .claim i none 0) := by
  have hbarrier : s.claimBarrier p (before ++ i :: after) = some (i, .noRight) :=
    findSome?_first (fun j hj => by obtain ⟨pt, hpt, hright⟩ := hbefore j hj; simp [Option.mem_def.1 hpt, hright])
      (by simp [hpt, hright])
  simp [State.takeClaim, hbarrier]

/-- A claim passes R37 when every listed point is open to the port. -/
theorem State.claimBarrier_open (hall : ∀ j ∈ ixs, s.Claimable p j) : s.claimBarrier p ixs = none :=
  List.findSome?_eq_none_iff.2 fun j hj => by
    obtain ⟨pt, hpt, hright⟩ := hall j hj
    simp [Option.mem_def.1 hpt, hright]

/-- A claim passes R38 when no listed point is held by another party. -/
theorem State.firstOccupied_available (hall : ∀ j ∈ ixs, s.Available p j) : s.firstOccupied p ixs = none :=
  List.findSome?_eq_none_iff.2 fun j hj => by
    obtain ⟨pt, hpt, hfree | hown⟩ := hall j hj
    · simp [Option.mem_def.1 hpt, hfree]
    · simp [Option.mem_def.1 hpt, hown]

/-- R38 finds the first listed point that another party holds. -/
theorem State.firstOccupied_first (hbefore : ∀ j ∈ before, s.Available p j) (hpt : s.slot i = some pt)
    (hparty : pt.holder.party = some w) (hother : w ≠ .port p) :
    s.firstOccupied p (before ++ i :: after) = some (i, w) :=
  findSome?_first
    (fun j hj => List.findSome?_eq_none_iff.1 (State.firstOccupied_available hbefore) j hj)
    (by simp [hpt, hparty, hother])

/-- A claim without the wait flag is refused at an occupied point (R38). -/
theorem State.takeClaim_held (hall : ∀ j ∈ ixs, s.Claimable p j) (hfirst : s.firstOccupied p ixs = some (i, w))
    (hwait : args.wait = false) : s.takeClaim p args mode ixs = (s, .held, .claim i (some w) 0) := by
  simp [State.takeClaim, State.claimBarrier_open hall, hfirst, hwait]

/-- A claim with the wait flag goes on to R39 at an occupied point. -/
theorem State.takeClaim_waits (hall : ∀ j ∈ ixs, s.Claimable p j) (hfirst : s.firstOccupied p ixs = some (i, w))
    (hwait : args.wait = true) :
    s.takeClaim p args mode ixs =
      s.placeWait { port := p, lease := args.lease.toNat, mode := mode, remaining := args.waitLimit.toNat } ixs w := by
  simp [State.takeClaim, State.claimBarrier_open hall, hfirst, hwait]

/-- A claim that finds no occupied point is granted when the count of the port allows it (R40). -/
theorem State.takeClaim_free (hall : ∀ j ∈ ixs, s.Claimable p j ∧ s.Available p j) :
    s.takeClaim p args mode ixs =
      if 128 < s.counts.get p + s.freeCount ixs then (s, .limit, .empty)
      else (s.grantClaim { port := p, lease := freshLease args.lease.toNat, mode := mode } ixs, .ok, .empty) := by
  simp only [State.takeClaim, State.claimBarrier_open fun j hj => (hall j hj).1,
    State.firstOccupied_available fun j hj => (hall j hj).2]
  rfl

/-! ### A CLAIM that is granted (R40, R41) -/

/-- A grant adds the points newly held to the count of its port, and leaves the other counts alone (R35). -/
theorem State.counts_grantClaim (s : State) (c : PortClaim) (ixs : List PointIx) (q : Port) :
    (s.grantClaim c ixs).counts.get q = if q = c.port then s.counts.get q + s.freeCount ixs else s.counts.get q := by
  have hcounts : ∀ f : Point → Point, (ixs.foldl (fun u i => u.modifySlot i f) s).counts = s.counts := fun f =>
    foldl_field State.counts (fun u i => u.modifySlot i f) (fun _ _ => rfl) ixs s
  unfold State.grantClaim
  rw [State.setCount_counts, PerPort.get_set, hcounts]
  split
  · rename_i hq
    rw [hq]
  · rfl

theorem State.grantClaim_ports (s : State) (c : PortClaim) (ixs : List PointIx) : (s.grantClaim c ixs).ports = s.ports :=
  (congrArg State.ports (s.grantClaim_frame c ixs) :)

/-- A lease of the length that a field carries (R33). -/
theorem freshLease_toNat (f : Half) :
    freshLease f.toNat = if f = 0 then none else some { length := f.toNat, remaining := f.toNat } := by
  have hzero : f.toNat = 0 ↔ f = 0 := ⟨fun h => BitVec.eq_of_toNat_eq h, fun h => by rw [h]; rfl⟩
  simp only [freshLease, hzero]

/-- The points counted are those that no party holds. -/
theorem State.freeCount_eq_length (s : State) (ixs : List PointIx) :
    s.freeCount ixs = (ixs.filter fun i => (s.slot i).any fun pt => pt.holder = .none).length := by
  unfold State.freeCount
  have hnone : ∀ pt : Point, pt.holder.party.isNone = decide (pt.holder = .none) := fun pt => by
    rw [Bool.eq_iff_iff, Option.isNone_iff_eq_none, Holder.party_eq_none, decide_eq_true_eq]
  rw [List.countP_eq_length_filter]
  simp only [hnone]

end

/-- Settles O24: a CLAIM that passes its checks is the grant, read slot by slot and count by count. -/
theorem claimGrantsEveryPoint : Obligations.ClaimGrantsEveryPoint := by
  intro s p args ixs mode hdue hargs hall hroom
  have htake := State.takeClaim_free (args := args) (mode := mode) hall
  rw [if_neg (Nat.not_lt.2 hroom), freshLease_toNat] at htake
  refine ⟨_, exec_claim_passed hdue hargs htake, replied_answer (State.grantClaim_ports ..) p _ _, fun i hi => ?_,
    fun i hi => ?_, fun q => ?_, ?_, s.freeCount_eq_length ixs⟩
  · rw [State.slot_settle, State.slot_answer, State.slot_grantClaim, if_pos hi]
  · rw [State.slot_settle, State.slot_answer, State.slot_grantClaim, if_neg hi]
  · rw [State.settle_counts, State.answer_counts, State.counts_grantClaim]
  · exact congrArg (fun w : State => { w with ports := s.ports }) (s.grantClaim_frame _ ixs)

/-! ### A CLAIM that waits (R39) -/

section
variable {s : State} {p : Port} {args : ClaimArgs} {ixs : List PointIx} {mode : ClaimMode} {i : PointIx} {pt : Point}
  {w : Party}

/-- A claim on a point that is not open to it finds an occupied point (R38). -/
theorem State.firstOccupied_of_unavailable (hall : ∀ j ∈ ixs, s.Claimable p j) (hsome : ∃ j ∈ ixs, ¬ s.Available p j) :
    ∃ i w, s.firstOccupied p ixs = some (i, w) := by
  obtain ⟨j, hj, hnot⟩ := hsome
  cases hfirst : s.firstOccupied p ixs with
  | some found => exact ⟨found.1, found.2, rfl⟩
  | none =>
    obtain ⟨pt, hpt, -⟩ := hall j hj
    exact absurd ⟨pt, hpt, State.firstOccupied_none hfirst j hj pt hpt⟩ hnot

/-- A wait is placed on one point only. -/
theorem State.placeWait_several (s : State) (x : Wait) (h : 1 < ixs.length) : s.placeWait x ixs w = (s, .badArg, .empty) := by
  match ixs, h with
  | _ :: _ :: _, _ => rfl

/-- A wait on one point: refused when the port waits there already, when three wait, or at the limit of the count, and otherwise
placed at the tail (R39, R45). -/
theorem State.placeWait_one (hpt : s.slot i = some pt) (x : Wait) :
    s.placeWait x [i] w =
      if x.port ∈ pt.waiting then (s, .state, .empty)
      else if 3 ≤ pt.waiters.length then (s, .busy, .empty)
      else if 128 < s.counts.get x.port + 1 then (s, .limit, .empty)
      else ((s.modifySlot i fun pt => { pt with waiters := pt.waiters ++ [x] }).setCount x.port (s.counts.get x.port + 1),
        .waiting, .claim i (some w) (pt.waiters.length + 1)) := by
  have hwaiting : (pt.waiters.any fun y => y.port = x.port) = true ↔ x.port ∈ pt.waiting := by
    simp [Point.waiting, List.any_eq_true]
  simp only [State.placeWait, State.waitersAt_of_slot hpt, hwaiting]
  rfl

/-- A wait placed and the request answered: the slot's waiter list, the count of the port, and nothing else. -/
theorem State.placedWait_answered (hpt : s.slot i = some pt) (x : Wait) (body : Body) :
    let t := (((s.modifySlot i fun pt => { pt with waiters := pt.waiters ++ [x] }).setCount p (s.counts.get p + 1)).answer p
      .waiting body).settle
    Replied s t p .waiting body ∧ t.slot i = some { pt with waiters := pt.waiters ++ [x] } ∧
      (∀ j, j ≠ i → t.slot j = s.slot j) ∧
      (∀ q, t.counts.get q = if q = p then s.counts.get q + 1 else s.counts.get q) ∧
      { t with points := s.points, counts := s.counts, ports := s.ports } = s := by
  refine ⟨replied_answer rfl p _ _, ?_, fun j hj => ?_, fun q => ?_, rfl⟩
  · simp [hpt]
  · simp [hj]
  · rw [State.settle_counts, State.answer_counts, State.setCount_counts, PerPort.get_set]
    split
    · rename_i hq
      rw [hq]
    · rfl

end

/-- Settles O25: each check refuses at the first point that fails it, and the wait that passes them is placed at the tail. -/
theorem claimRefusedOrWaiting : Obligations.ClaimRefusedOrWaiting := by
  refine ⟨fun s p args hdue => ⟨fun hbad => onlyReplies_of (exec_claim_badArg hdue hbad), fun ixs mode hargs =>
    ⟨?_, ?_, fun hall hfull => ?_⟩⟩, fun s p args ixs mode hdue hargs hwait hall hsome => ⟨fun hlength => ?_, ?_⟩⟩
  · rintro before i after rfl hbefore
    exact ⟨fun hslot => onlyReplies_of (exec_claim_passed hdue hargs (State.takeClaim_notDefined hbefore hslot)),
      fun pt hpt hright => onlyReplies_of (exec_claim_passed hdue hargs (State.takeClaim_noRight hbefore hpt hright))⟩
  · rintro before i after pt w rfl hall hbefore hpt hparty hother hwait
    exact onlyReplies_of (exec_claim_passed hdue hargs
      (State.takeClaim_held hall (State.firstOccupied_first hbefore hpt hparty hother) hwait))
  · exact onlyReplies_of (exec_claim_passed hdue hargs ((State.takeClaim_free hall).trans (if_pos hfull)))
  · obtain ⟨i, w, hfirst⟩ := State.firstOccupied_of_unavailable hall hsome
    exact onlyReplies_of (exec_claim_passed hdue hargs
      ((State.takeClaim_waits hall hfirst hwait).trans (State.placeWait_several s _ hlength)))
  · rintro i pt w rfl hpt hparty
    obtain ⟨j, w', hfirst⟩ := State.firstOccupied_of_unavailable hall hsome
    obtain ⟨hj, pt', hpt', hparty', -⟩ := State.firstOccupied_some hfirst
    obtain rfl : j = i := List.mem_singleton.1 hj
    obtain rfl : pt = pt' := Option.some.inj (hpt.symm.trans hpt')
    obtain rfl : w = w' := Option.some.inj (hparty.symm.trans hparty')
    have htake := (State.takeClaim_waits (mode := mode) hall hfirst hwait).trans (State.placeWait_one hpt _)
    refine ⟨fun hin => onlyReplies_of (exec_claim_passed hdue hargs (htake.trans (if_pos hin))), fun hout hmany =>
      onlyReplies_of (exec_claim_passed hdue hargs ?_), fun hout hfew hfull =>
      onlyReplies_of (exec_claim_passed hdue hargs ?_), fun hout hfew hroom => ⟨_, exec_claim_passed hdue hargs ?_,
        State.placedWait_answered hpt _ _⟩⟩
    · rw [htake, if_neg hout, if_pos hmany]
    · rw [htake, if_neg hout, if_neg (Nat.not_le.2 hfew), if_pos hfull]
    · rw [htake, if_neg hout, if_neg (Nat.not_le.2 hfew), if_neg (Nat.not_lt.2 hroom)]

end Sys2Proof.Machine

namespace Sys2Proof.Machine

/-! ### A point that loses its holder (R34, R42, R46) -/

/-- Without a waiter the point becomes free. -/
theorem Point.release_free {pt : Point} (h : pt.waiters = []) : pt.release = { pt with holder := .none } := by
  simp only [Point.release, h]

/-- The head of the waiter list receives the point on its own terms, with a fresh lease. -/
theorem Point.release_passed {pt : Point} {w : Wait} {rest : List Wait} (h : pt.waiters = w :: rest) :
    pt.release =
      { pt with
        holder := .port
          { port := w.port
            lease := if w.lease = 0 then none else some { length := w.lease, remaining := w.lease }
            mode := w.mode }
        waiters := rest } := by
  simp only [Point.release, h]
  rfl

/-- The heir of a handover is told in the same event, and no other port. -/
theorem State.notices_releasePoint {s : State} {i : PointIx} {pt : Point} (h : s.slot i = some pt) (p q : Port) :
    (s.releasePoint p i).notices.get q = (s.notices.get q).takeAll (s.releasePoint p i)
      (if pt.waiting.head? = some q then [(.point i, .claimGranted)] else []) := by
  have hraised : s.releasePoint p i = ((s.setSlot i (some pt.release)).countDown p).raiseAll (pt.heirRaises i) := by
    simp only [State.releasePoint, h]
  rw [← raisedFor_heirRaises, hraised,
    State.raiseAll_notices_get _ _ _ (State.raiseAll_points ..) (State.raiseAll_orders ..)]
  rfl

/-- A release changes the points, the counts and the notice units alone. -/
theorem State.releasePoint_frame (s : State) (p : Port) (i : PointIx) :
    { s.releasePoint p i with points := s.points, counts := s.counts, notices := s.notices } = s := by
  cases h : s.slot i with
  | none => simp only [State.releasePoint, h]
  | some pt => rw [State.releasePoint_eq s p i pt h]

/-- Settles O26: a release is the release of one point, its count and its notice; every point of a party is released alike. -/
theorem handoverToTheOldestWaiter : Obligations.HandoverToTheOldestWaiter := by
  refine ⟨fun s p i pt hpt => ⟨fun hnone => ⟨?_, ?_⟩, fun w rest hw => ⟨?_, fun q => ?_⟩, fun j hj => ?_, fun q => ?_,
    s.releasePoint_frame p i⟩, fun pt => Point.release_free, fun pt w rest => Point.release_passed, fun s w =>
    ⟨fun i => s.slot_mapPoints _ i, rfl⟩⟩
  · rw [State.slot_releasePoint, if_pos rfl, hpt, ← Point.release_free hnone]
    rfl
  · refine PerPort.ext_get fun q => ?_
    rw [State.notices_releasePoint hpt, Point.waiting, hnone]
    rfl
  · rw [State.slot_releasePoint, if_pos rfl, hpt, ← Point.release_passed hw]
    rfl
  · rw [State.notices_releasePoint hpt, Point.waiting, hw]
    simp only [List.map_cons, List.head?_cons, Option.some.injEq, eq_comm]
  · rw [State.slot_releasePoint, if_neg hj]
  · exact State.counts_releasePoint (Option.isSome_of_eq_some hpt) p q

/-! ### What RELEASE and RENEW name (R42, R43) -/

section
variable {args : ListArgs} {ixs : List PointIx}

/-- A list of points of 511 or less. -/
theorem selection?_list (hselector : args.selector = 0) (hsome : args.points ≠ []) (hnames : Names args.points ixs) :
    selection? args = some (.list ixs) := by
  have hne : ixs.isEmpty = false := by
    rw [List.isEmpty_eq_false_iff]
    rintro rfl
    exact hsome (List.map_eq_nil_iff.1 hnames)
  simp [selection?, hselector, allSome_pointIx hnames, hne]

/-- ALL, which names no point. -/
theorem selection?_all (hselector : args.selector = 1) (hnone : args.points = []) : selection? args = some .all := by
  simp [selection?, hselector, hnone, allSome]

/-- Any other body is refused. -/
theorem selection?_eq_none (h : (∃ f ∈ args.points, 512 ≤ f.toNat) ∨ (args.selector = 0 ∧ args.points = []) ∨
    (args.selector = 1 ∧ args.points ≠ []) ∨ (args.selector ≠ 0 ∧ args.selector ≠ 1)) : selection? args = none := by
  obtain ⟨f, hf, hbig⟩ | ⟨hselector, hnone⟩ | ⟨hselector, hsome⟩ | ⟨hlist, hall⟩ := h
  · simp [selection?, allSome_eq_none hf ((pointIx?_eq_none f).2 hbig)]
  · simp [selection?, hselector, hnone, allSome]
  · unfold selection?
    cases hread : allSome pointIx? args.points with
    | none => simp
    | some ixs =>
      have hne : ixs.isEmpty = false := by
        rw [List.isEmpty_eq_false_iff]
        rintro rfl
        exact hsome (List.map_eq_nil_iff.1 (names_of_allSome hread))
      simp [hselector, hne]
  · have hzero : args.selector.toNat ≠ 0 := fun h => hlist (BitVec.eq_of_toNat_eq h)
    have hone : args.selector.toNat ≠ 1 := fun h => hall (BitVec.eq_of_toNat_eq h)
    unfold selection?
    split
    · exact absurd ‹_› hzero
    · exact absurd ‹_› hone
    · rfl

end

/-! ### Counting and lists (R42, R198) -/

/-- The number of points with a property, counted in ascending order. -/
theorem State.countP_finRange (s : State) (f : Point → Bool) :
    (s.points.toList.countP fun x => x.any f) = (List.finRange 512).countP fun i => (s.slot i).any f := by
  have hlist : s.points.toList = (List.finRange 512).map s.slot := by
    apply List.ext_getElem
    · rw [Vector.length_toList, List.length_map, List.length_finRange]
    · intro k hk hk'
      rw [Vector.getElem_toList, List.getElem_map, List.getElem_finRange]
      rfl
  rw [hlist, List.countP_map]
  rfl

/-- The points that a party holds, counted slot by slot. -/
theorem State.heldCount_eq (s : State) (w : Party) :
    s.heldCount w = (List.finRange 512).countP fun i => s.heldAt i w := s.countP_finRange fun pt => pt.heldBy w

/-- The entries of a list one after the other: the effect where the port holds, NOT_HOLDER elsewhere. -/
theorem State.takeList_cons (effect : State → PointIx → State) (p : Port) (s : State) (i : PointIx) (ixs : List PointIx) :
    State.takeList effect p s (i :: ixs) =
      if s.heldAt i (.port p) then
        ((State.takeList effect p (effect s i) ixs).1, .ok :: (State.takeList effect p (effect s i) ixs).2)
      else ((State.takeList effect p s ixs).1, .notHolder :: (State.takeList effect p s ixs).2) := rfl

/-! ### Notices at the end of an event (R81, R182) -/

/-- The notice units after an event, with the causes that its effect made them take. -/
theorem State.notices_settled {w : State} {q : Port} {u : NoticeUnit} {cs : List (Subject × Cause)}
    (h : w.notices.get q = u.takeAll w cs) : w.settle.notices.get q = u.takeAll w.settle cs := by
  rw [State.settle_notices, h]
  exact (NoticeUnit.takeAll_congr (State.subjectState_congr (State.settle_points w) (State.settle_orders w)) u cs).symm

/-- The same after the event of a request, which ends with its answer. -/
theorem State.notices_answered {w : State} {p q : Port} {status : Status} {body : Body} {u : NoticeUnit}
    {cs : List (Subject × Cause)} (h : w.notices.get q = u.takeAll w cs) :
    (w.answer p status body).settle.notices.get q = u.takeAll (w.answer p status body).settle cs :=
  State.notices_settled (h.trans
    (NoticeUnit.takeAll_congr (State.subjectState_congr (State.answer_points ..) (State.answer_orders ..)) u cs).symm)

/-! ### RELEASE (R42) -/

section
variable {s : State} {p : Port} {args : ListArgs} {ixs : List PointIx}

theorem exec_release_badArg (hdue : s.Due p (.release args)) (h : selection? args = none) :
    exec (.release p args) s = .next (s.answer p .badArg .empty).settle := by
  show execRelease p args s = _
  rw [execRelease, onRequest_due hdue, h]

theorem exec_release_list (hdue : s.Due p (.release args)) (h : selection? args = some (.list ixs)) :
    exec (.release p args) s = .next ((State.takeList (fun s i => s.releasePoint p i) p s ixs).1.answer p .ok
      (listBody (State.takeList (fun s i => s.releasePoint p i) p s ixs).2)).settle := by
  show execRelease p args s = _
  rw [execRelease, onRequest_due hdue, h]

theorem exec_release_all (hdue : s.Due p (.release args)) (h : selection? args = some .all) :
    exec (.release p args) s = .next ((s.releaseAll p).answer p .ok (.all (s.heldCount (.port p)))).settle := by
  show execRelease p args s = _
  rw [execRelease, onRequest_due hdue, h]

end

theorem State.releaseList_ports (s : State) (p : Port) (ixs : List PointIx) :
    (State.takeList (fun s i => s.releasePoint p i) p s ixs).1.ports = s.ports :=
  (congrArg State.ports (releaseList_frame p s ixs) :)

/-- RELEASE ALL at one slot. -/
theorem State.slot_releaseAll (s : State) (p : Port) (i : PointIx) :
    (s.releaseAll p).slot i = (s.slot i).map fun pt => if pt.heldBy (.port p) then pt.release else pt := by
  unfold State.releaseAll
  dsimp only
  rw [State.slot_raiseAll, State.slot_setCount]
  exact s.slot_mapPoints _ i

/-- RELEASE ALL lowers the port's count by the points that it held (R35). -/
theorem State.counts_releaseAll (s : State) (p q : Port) :
    (s.releaseAll p).counts.get q = if q = p then s.counts.get q - s.heldCount (.port p) else s.counts.get q := by
  unfold State.releaseAll
  dsimp only
  rw [State.raiseAll_counts, State.setCount_counts, PerPort.get_set]
  split
  · rename_i hq
    rw [hq]
    rfl
  · rfl

/-- RELEASE ALL tells the heir of each point, in ascending order (R47, R81). -/
theorem State.notices_releaseAll (s : State) (p q : Port) :
    (s.releaseAll p).notices.get q = (s.notices.get q).takeAll (s.releaseAll p)
      (s.grantsFor q fun pt => if pt.heldBy (.port p) then pt.waiting.head? else none) := by
  rw [← raisedFor_releaseRaises]
  exact State.raiseAll_notices_get _ _ _ (State.raiseAll_points ..) (State.raiseAll_orders ..) q

/-- RELEASE ALL changes the points, the counts and the notice units alone. -/
theorem State.releaseAll_frame (s : State) (p : Port) :
    { s.releaseAll p with points := s.points, counts := s.counts, notices := s.notices } = s := by
  unfold State.releaseAll
  dsimp only
  rw [State.raiseAll_eq]
  rfl

/-- Settles O27: a list entry by entry, ALL slot by slot and port by port, and every other body refused. -/
theorem releaseFreesWhatThePortHolds : Obligations.ReleaseFreesWhatThePortHolds := by
  refine ⟨fun s p args hdue => ⟨fun ixs hselector hsome hnames => ?_, fun hselector hnone => ?_, fun hbad => ?_⟩,
    fun _ _ _ => rfl, State.takeList_cons, State.heldCount_eq, fun _ => rfl⟩
  · exact ⟨_, exec_release_list hdue (selection?_list hselector hsome hnames),
      replied_answer (s.releaseList_ports p ixs) p _ _, State.answered_frame (s.releaseList_ports p ixs) p _ _⟩
  · have hports : (s.releaseAll p).ports = s.ports := State.raiseAll_ports ..
    have hframe := s.releaseAll_frame p
    refine ⟨_, exec_release_all hdue (selection?_all hselector hnone), replied_answer hports p _ _, fun i => ?_, fun q => ?_,
      fun q => ?_, ?_⟩
    · rw [State.slot_settle, State.slot_answer, State.slot_releaseAll]
    · rw [State.settle_counts, State.answer_counts, State.counts_releaseAll]
    · exact State.notices_answered (s.notices_releaseAll p q)
    · generalize s.releaseAll p = w at hframe ⊢
      exact congrArg (fun w : State => { w with ports := s.ports }) hframe
  · exact onlyReplies_of (exec_release_badArg hdue (selection?_eq_none hbad))

/-! ### RENEW (R43) -/

section
variable {s : State} {p : Port} {args : ListArgs} {ixs : List PointIx}

theorem exec_renew_badArg (hdue : s.Due p (.renew args)) (h : selection? args = none) :
    exec (.renew p args) s = .next (s.answer p .badArg .empty).settle := by
  show execRenew p args s = _
  rw [execRenew, onRequest_due hdue, h]

theorem exec_renew_list (hdue : s.Due p (.renew args)) (h : selection? args = some (.list ixs)) :
    exec (.renew p args) s =
      .next ((State.takeList (fun s i => s.modifySlot i fun pt => pt.renewFor p) p s ixs).1.answer p .ok
        (listBody (State.takeList (fun s i => s.modifySlot i fun pt => pt.renewFor p) p s ixs).2)).settle := by
  show execRenew p args s = _
  rw [execRenew, onRequest_due hdue, h]

theorem exec_renew_all (hdue : s.Due p (.renew args)) (h : selection? args = some .all) :
    exec (.renew p args) s =
      .next ((s.mapPoints fun pt => pt.renewFor p).answer p .ok (.all (s.heldCount (.port p)))).settle := by
  show execRenew p args s = _
  rw [execRenew, onRequest_due hdue, h]

end

/-- A renewed point is held by the party that held it. -/
theorem Point.heldBy_renewFor (pt : Point) (p : Port) (w : Party) : (pt.renewFor p).heldBy w = pt.heldBy w := by
  unfold Point.renewFor
  split
  · simp only [Point.heldBy, Holder.party_restart]
  · rfl

/-- A lease restarted twice is restarted once. -/
theorem Holder.restart_restart (h : Holder) : h.restart.restart = h.restart := by
  cases h with
  | port c => simp [Holder.restart, PortClaim.restart, Option.map_map, Function.comp_def]
  | _ => rfl

/-- A point that another party holds is not renewed. -/
theorem Point.renewFor_other {pt : Point} {p : Port} (h : pt.heldBy (.port p) = false) : pt.renewFor p = pt := by
  simp [Point.renewFor, h]

theorem Point.renewFor_renewFor (pt : Point) (p : Port) : (pt.renewFor p).renewFor p = pt.renewFor p := by
  cases hheld : pt.heldBy (.port p) with
  | false => rw [Point.renewFor_other hheld, Point.renewFor_other hheld]
  | true =>
    have hagain : (pt.renewFor p).heldBy (.port p) = true := (pt.heldBy_renewFor p _).trans hheld
    rw [Point.renewFor, if_pos hagain, Point.renewFor, if_pos hheld]
    simp only [Holder.restart_restart]

/-- RENEW leaves every holder in place. -/
theorem State.heldAt_renewSlot (s : State) (p : Port) (i j : PointIx) (w : Party) :
    (s.modifySlot i fun pt => pt.renewFor p).heldAt j w = s.heldAt j w := by
  unfold State.heldAt
  rw [State.slot_modifySlot]
  split
  · rename_i hj
    rw [hj]
    cases s.slot i <;> simp [Point.heldBy_renewFor]
  · rfl

/-- A RENEW of a list at one slot: the points named are renewed where the port holds them. -/
theorem State.slot_renewList (s : State) (p : Port) (ixs : List PointIx) (j : PointIx) :
    (State.takeList (fun s i => s.modifySlot i fun pt => pt.renewFor p) p s ixs).1.slot j =
      if j ∈ ixs then (s.slot j).map fun pt => pt.renewFor p else s.slot j := by
  induction ixs generalizing s with
  | nil => rfl
  | cons i ixs ih =>
    rw [State.takeList_cons]
    cases hheld : s.heldAt i (.port p) with
    | true =>
      rw [if_pos rfl, ih, State.slot_modifySlot]
      by_cases hji : j = i
      · subst hji
        simp only [if_true, List.mem_cons, true_or, Option.map_map, Function.comp_def, Point.renewFor_renewFor, ite_self]
      · simp only [hji, if_false, List.mem_cons, false_or]
    | false =>
      rw [if_neg Bool.false_ne_true, ih]
      by_cases hji : j = i
      · subst hji
        have hsame : ((s.slot j).map fun pt => pt.renewFor p) = s.slot j := by
          unfold State.heldAt at hheld
          cases hpt : s.slot j with
          | none => rfl
          | some pt =>
            rw [hpt, Option.any_some] at hheld
            rw [Option.map_some, Point.renewFor_other hheld]
        simp only [hsame, ite_self]
      · simp only [List.mem_cons, hji, false_or]

/-- The statuses of a RENEW of a list: each entry finds the holder that stood before the request. -/
theorem State.statuses_renewList (s : State) (p : Port) (ixs : List PointIx) :
    (State.takeList (fun s i => s.modifySlot i fun pt => pt.renewFor p) p s ixs).2 =
      ixs.map fun i => if s.heldAt i (.port p) then Status.ok else .notHolder := by
  induction ixs generalizing s with
  | nil => rfl
  | cons i ixs ih =>
    rw [State.takeList_cons, List.map_cons]
    split
    · rw [ih]
      simp only [State.heldAt_renewSlot]
    · rw [ih]

/-- The response body of a RENEW of a list. -/
theorem listBody_renewList (s : State) (p : Port) (ixs : List PointIx) :
    listBody (State.takeList (fun s i => s.modifySlot i fun pt => pt.renewFor p) p s ixs).2 =
      .list (ixs.countP fun i => s.heldAt i (.port p))
        (ixs.map fun i => if s.heldAt i (.port p) then Status.ok else .notHolder) := by
  have hok : ∀ b : Bool, decide ((if b then Status.ok else .notHolder) = Status.ok) = b := by decide
  simp only [listBody, State.statuses_renewList, List.countP_map, Function.comp_def, hok]

theorem State.renewList_ports (s : State) (p : Port) (ixs : List PointIx) :
    (State.takeList (fun s i => s.modifySlot i fun pt => pt.renewFor p) p s ixs).1.ports = s.ports :=
  (congrArg State.ports (renewList_frame p s ixs) :)

/-- Settles O28: RENEW restarts the leases of a list or of every point that the port holds, and changes nothing else. -/
theorem renewRestartsLeases : Obligations.RenewRestartsLeases := by
  refine ⟨rfl, fun s p args hdue => ⟨fun ixs hselector hsome hnames => ?_, fun hselector hnone => ?_, fun hbad => ?_,
    fun _ => rfl, fun h hport => ?_⟩⟩
  · have hexec := exec_renew_list hdue (selection?_list hselector hsome hnames)
    have hports := s.renewList_ports p ixs
    rw [listBody_renewList] at hexec
    refine ⟨_, hexec, replied_answer hports p _ _, fun i hi => ?_, fun i hi => ?_, ?_⟩
    · rw [State.slot_settle, State.slot_answer, State.slot_renewList, if_neg hi]
    · rw [State.slot_settle, State.slot_answer, State.slot_renewList, if_pos hi]
      rfl
    · exact congrArg (fun w : State => { w with ports := s.ports }) (renewList_frame p s ixs)
  · exact ⟨_, exec_renew_all hdue (selection?_all hselector hnone), replied_answer rfl p _ _, s.slot_mapPoints _, rfl⟩
  · exact onlyReplies_of (exec_renew_badArg hdue (selection?_eq_none hbad))
  · cases h with
    | port c => exact absurd rfl (hport c)
    | _ => rfl

/-! ### WITHDRAW (R44) -/

section
variable {s : State} {p : Port} {field : Half} {i : PointIx}

theorem exec_withdraw_badArg (hdue : s.Due p (.withdraw field)) (h : 512 ≤ field.toNat) :
    exec (.withdraw p field) s = .next (s.answer p .badArg .empty).settle := by
  show execWithdraw p field s = _
  rw [execWithdraw, onRequest_due hdue, (pointIx?_eq_none field).2 h]

/-- A port waits on a slot when it is among the waiters of the point there. -/
theorem State.waitersAt_any_iff :
    ((s.waitersAt i).any fun w => w.port = p) = true ↔ ∃ pt ∈ s.slot i, p ∈ pt.waiting := by
  cases hpt : s.slot i <;> simp [State.waitersAt, hpt, Point.waiting]

/-- A WITHDRAW that is due finds no wait of the port. -/
theorem exec_withdraw_notWaiting (hdue : s.Due p (.withdraw field)) (hi : field.toNat = i.val)
    (h : ∀ pt ∈ s.slot i, p ∉ pt.waiting) :
    exec (.withdraw p field) s = .next (s.answer p .notWaiting .empty).settle := by
  have hnone : ¬ ((s.waitersAt i).any fun w => w.port = p) = true := by
    rw [State.waitersAt_any_iff]
    rintro ⟨pt, hpt, hin⟩
    exact h pt hpt hin
  show execWithdraw p field s = _
  rw [execWithdraw, onRequest_due hdue, (pointIx?_eq_some field i).2 hi]
  simp only [if_neg hnone]

/-- A WITHDRAW that is due removes the wait of the port and counts it down. -/
theorem exec_withdraw_removed {pt : Point} (hdue : s.Due p (.withdraw field)) (hi : field.toNat = i.val)
    (hpt : s.slot i = some pt) (hin : p ∈ pt.waiting) :
    exec (.withdraw p field) s =
      .next (((s.modifySlot i fun pt => { pt with waiters := withoutPort p pt.waiters }).countDown p).answer p .ok
        .empty).settle := by
  show execWithdraw p field s = _
  rw [execWithdraw, onRequest_due hdue, (pointIx?_eq_some field i).2 hi]
  simp only [if_pos (State.waitersAt_any_iff.2 ⟨pt, hpt, hin⟩)]

/-- A port counted down, and no other (R35). -/
theorem State.counts_countDown (s : State) (p q : Port) :
    (s.countDown p).counts.get q = if q = p then s.counts.get q - 1 else s.counts.get q := by
  rw [State.countDown, State.setCount_counts, PerPort.get_set]
  split
  · rename_i hq
    rw [hq]
  · rfl

end

/-- Settles O29: WITHDRAW is refused, or changes one waiter list and one count. -/
theorem withdrawRemovesTheWait : Obligations.WithdrawRemovesTheWait := by
  refine ⟨rfl, fun s p field hdue => ⟨fun hbig => onlyReplies_of (exec_withdraw_badArg hdue hbig), fun i hi =>
    ⟨fun hnone => onlyReplies_of (exec_withdraw_notWaiting hdue hi hnone), fun pt hpt hin =>
      ⟨_, exec_withdraw_removed hdue hi hpt hin, replied_answer rfl p _ _, ?_, fun j hj => ?_, fun q => ?_, rfl⟩⟩⟩⟩
  · rw [State.slot_settle, State.slot_answer, State.countDown, State.slot_setCount, State.slot_modifySlot, if_pos rfl, hpt]
    rfl
  · rw [State.slot_settle, State.slot_answer, State.countDown, State.slot_setCount, State.slot_modifySlot, if_neg hj]
  · rw [State.settle_counts, State.answer_counts, State.counts_countDown, State.modifySlot_counts]

end Sys2Proof.Machine

/-! PROOFS. Internal claims: the claims that ORDER_ARM and SCAN_ARM make for every destination together, the releases of ORDER_DISARM
and SCAN_DISARM, and the other requests of the scanner. -/

namespace Sys2Proof.Machine

/-! ### Internal claims (R48) -/

section
variable {s : State} {before after dests : List PointIx} {i : PointIx} {pt : Point} {w : Party}

theorem State.internalRefusal_free (h : s.FreeForInternal i) : s.internalRefusal i = none := by
  obtain ⟨pt, hpt, hright, hfree⟩ := h
  simp [State.internalRefusal, Option.mem_def.1 hpt, hright, hfree]

theorem State.internalRefusal_undefined (h : s.slot i = none) : s.internalRefusal i = some (.notDefined, none) := by
  simp [State.internalRefusal, h]

theorem State.internalRefusal_noRight (hpt : s.slot i = some pt) (hright : pt.defn.rights.internal = false) :
    s.internalRefusal i = some (.noRight, none) := by
  simp [State.internalRefusal, hpt, hright]

theorem State.internalRefusal_held (hpt : s.slot i = some pt) (hright : pt.defn.rights.internal = true)
    (hparty : pt.holder.party = some w) : s.internalRefusal i = some (.held, some w) := by
  simp [State.internalRefusal, hpt, hright, hparty]

/-- An internal claim passes when every destination is free for it. -/
theorem State.firstInternalRefusal_free (h : ∀ j ∈ dests, s.FreeForInternal j) : s.firstInternalRefusal dests = none :=
  List.findSome?_eq_none_iff.2 fun (j, k) hj => by
    rw [Option.map_eq_none_iff]
    exact State.internalRefusal_free (h j (List.fst_mem_of_mem_zipIdx hj))

/-- An internal claim is refused at the first destination that is not free for it, with its place in the list. -/
theorem State.firstInternalRefusal_first {status : Status} {holder : Option Party} (hbefore : ∀ j ∈ before, s.FreeForInternal j)
    (hi : s.internalRefusal i = some (status, holder)) :
    s.firstInternalRefusal (before ++ i :: after) = some (before.length, i, status, holder) := by
  unfold State.firstInternalRefusal
  rw [List.zipIdx_append, List.zipIdx_cons]
  refine findSome?_first (fun (j, k) hj => ?_) ?_
  · rw [Option.map_eq_none_iff]
    exact State.internalRefusal_free (hbefore j (List.fst_mem_of_mem_zipIdx hj))
  · simp only [hi, Nat.zero_add, Option.map_some]

end

/-- The destinations of an order whose run lies within the table, in ascending order (R112). -/
theorem OrderDef.map_val_dests {d : OrderDef} (h : d.dest.val + d.runLength ≤ 512) :
    d.dests.map Fin.val = List.range' d.dest.val d.runLength := by
  unfold OrderDef.dests PointIx.run
  rw [List.map_map, List.range'_eq_map_range]
  refine List.map_congr_left fun k hk => ?_
  have hk := List.mem_range.1 hk
  exact PointIx.val_plus (by omega)

/-! ### ORDER_ARM (R115) -/

section
variable {s : State} {p : Port} {num : Byte} {n : OrderIx} {o : Order}

theorem exec_orderArm_badArg (hdue : s.Due p (.orderArm num)) (h : 31 < num.toNat) :
    exec (.orderArm p num) s = .next (s.answer p .badArg .empty).settle := by
  show execOrderArm p num s = _
  rw [execOrderArm, onRequest_due hdue, (orderIx?_eq_none num).2 h]

/-- An ORDER_ARM of an EMPTY slot or of an ARMED order. -/
theorem exec_orderArm_state (hdue : s.Due p (.orderArm num)) (hn : num.toNat = n.val)
    (h : s.order n = none ∨ s.armed n = true) :
    exec (.orderArm p num) s = .next (s.answer p .state .empty).settle := by
  show execOrderArm p num s = _
  rw [execOrderArm, onRequest_due hdue, (orderIx?_eq_some num n).2 hn]
  cases ho : s.order n with
  | none => simp only [ho]
  | some o =>
    have harmed : o.phase = .armed := by simpa [State.armed, ho] using h
    simp only [ho, if_pos harmed]

theorem State.phase_of_unarmed (ho : s.order n = some o) (harmed : s.armed n = false) : ¬ o.phase = .armed := by
  simpa [State.armed, ho] using harmed

theorem exec_orderArm_busy (hdue : s.Due p (.orderArm num)) (hn : num.toNat = n.val) (ho : s.order n = some o)
    (harmed : s.armed n = false) (hflag : s.runFlag n = .stopping) :
    exec (.orderArm p num) s = .next (s.answer p .busy .empty).settle := by
  show execOrderArm p num s = _
  rw [execOrderArm, onRequest_due hdue, (orderIx?_eq_some num n).2 hn]
  simp only [ho, if_neg (State.phase_of_unarmed ho harmed), if_pos hflag]

/-- The first destination that refuses is named in the answer, and nothing else happens. -/
theorem exec_orderArm_refused {before after : List PointIx} {i : PointIx} {status : Status} {holder : Option Party}
    (hdue : s.Due p (.orderArm num)) (hn : num.toNat = n.val) (ho : s.order n = some o) (harmed : s.armed n = false)
    (hflag : s.runFlag n ≠ .stopping) (hdests : o.defn.dests = before ++ i :: after)
    (hbefore : ∀ j ∈ before, s.FreeForInternal j) (hi : s.internalRefusal i = some (status, holder)) :
    exec (.orderArm p num) s = .next (s.answer p status (.orderArm i holder)).settle := by
  show execOrderArm p num s = _
  rw [execOrderArm, onRequest_due hdue, (orderIx?_eq_some num n).2 hn]
  simp only [ho, if_neg (State.phase_of_unarmed ho harmed), if_neg hflag, hdests,
    State.firstInternalRefusal_first hbefore hi]

theorem exec_orderArm_granted (hdue : s.Due p (.orderArm num)) (hn : num.toNat = n.val) (ho : s.order n = some o)
    (harmed : s.armed n = false) (hflag : s.runFlag n ≠ .stopping) (hfree : ∀ i ∈ o.defn.dests, s.FreeForInternal i) :
    exec (.orderArm p num) s =
      .next (((s.grantInternal (.order n) o.defn.dests).setOrder n (some o.arm)).answer p .ok .empty).settle := by
  show execOrderArm p num s = _
  rw [execOrderArm, onRequest_due hdue, (orderIx?_eq_some num n).2 hn]
  simp only [ho, if_neg (State.phase_of_unarmed ho harmed), if_neg hflag, State.firstInternalRefusal_free hfree]

end

/-- Settles O40: the refusals of ORDER_ARM in their order, and the claim of every destination together. -/
theorem orderArmClaimsEveryDestination : Obligations.OrderArmClaimsEveryDestination := by
  refine ⟨fun d => OrderDef.map_val_dests, fun s p num hdue => ⟨fun hbad => onlyReplies_of (exec_orderArm_badArg hdue hbad),
    fun n hn => ⟨fun h => onlyReplies_of (exec_orderArm_state hdue hn h), fun o ho harmed =>
      ⟨fun hflag => onlyReplies_of (exec_orderArm_busy hdue hn ho harmed hflag), fun hflag before i after hdests hbefore => ?_, fun hflag hfree => ?_⟩⟩⟩⟩
  · have hexec := fun status holder =>
      exec_orderArm_refused (status := status) (holder := holder) hdue hn ho harmed hflag hdests hbefore
    exact ⟨fun hslot => onlyReplies_of (hexec _ _ (State.internalRefusal_undefined hslot)), fun pt hpt =>
      ⟨fun hright => onlyReplies_of (hexec _ _ (State.internalRefusal_noRight hpt hright)), fun w hright hparty =>
        onlyReplies_of (hexec _ _ (State.internalRefusal_held hpt hright hparty))⟩⟩
  · refine ⟨_, exec_orderArm_granted hdue hn ho harmed hflag hfree, replied_answer (State.grantInternal_ports ..) p _ _, ?_,
      fun m hm => ?_, fun i hi => ?_, fun i hi => ?_, ?_⟩
    · rw [State.order_settle, State.order_answer, State.order_setOrder, if_pos rfl]
      rfl
    · rw [State.order_settle, State.order_answer, State.order_setOrder, if_neg hm, State.order_grantInternal]
    · rw [State.slot_settle, State.slot_answer, State.slot_setOrder, State.slot_grantInternal, if_pos hi]
    · rw [State.slot_settle, State.slot_answer, State.slot_setOrder, State.slot_grantInternal, if_neg hi]
    · rw [State.grantInternal_eq]
      rfl

/-! ### Every point of an internal holder released (R47, R49) -/

/-- The points that a party holds released in one event, each slot on its own. -/
theorem State.slot_releaseHeld (s : State) (w : Party) (i : PointIx) :
    (s.releaseHeld w).slot i = (s.slot i).map fun pt => if pt.heldBy w then pt.release else pt := s.slot_mapPoints _ i

/-- The notice units after every point of a party is released: each takes CLAIM_GRANTED for the points that pass to its port. The
causes are gathered from a state with the same points, notices and subjects. -/
theorem State.notices_raiseHandovers (s w : State) (v : Party) (q : Port) (hn : w.notices = s.notices) :
    (w.raiseAll (s.releaseRaises v)).notices.get q = (s.notices.get q).takeAll (w.raiseAll (s.releaseRaises v))
      (s.grantsFor q fun pt => if pt.heldBy v then pt.waiting.head? else none) := by
  rw [← raisedFor_releaseRaises, ← hn]
  exact State.raiseAll_notices_get _ _ _ (State.raiseAll_points ..) (State.raiseAll_orders ..) q

/-! ### ORDER_DISARM (R116, R135) -/

section
variable {s : State} {p : Port} {num : Byte} {n : OrderIx} {o : Order}

theorem exec_orderDisarm_badArg (hdue : s.Due p (.orderDisarm num)) (h : 31 < num.toNat) :
    exec (.orderDisarm p num) s = .next (s.answer p .badArg .empty).settle := by
  show execOrderDisarm p num s = _
  rw [execOrderDisarm, onRequest_due hdue, (orderIx?_eq_none num).2 h]

theorem exec_orderDisarm_empty (hdue : s.Due p (.orderDisarm num)) (hn : num.toNat = n.val) (ho : s.order n = none) :
    exec (.orderDisarm p num) s = .next (s.answer p .state .empty).settle := by
  show execOrderDisarm p num s = _
  rw [execOrderDisarm, onRequest_due hdue, (orderIx?_eq_some num n).2 hn]
  simp only [ho]

theorem exec_orderDisarm_disarmed (hdue : s.Due p (.orderDisarm num)) (hn : num.toNat = n.val) (ho : s.order n = some o)
    (hphase : o.phase = .disarmed) : exec (.orderDisarm p num) s = .next (s.answer p .ok .empty).settle := by
  show execOrderDisarm p num s = _
  rw [execOrderDisarm, onRequest_due hdue, (orderIx?_eq_some num n).2 hn]
  simp only [ho, hphase]

theorem exec_orderDisarm_retired (hdue : s.Due p (.orderDisarm num)) (hn : num.toNat = n.val) (ho : s.order n = some o)
    (hphase : o.phase = .retired) :
    exec (.orderDisarm p num) s =
      .next ((s.setOrder n (some { o with phase := .disarmed })).answer p .ok .empty).settle := by
  show execOrderDisarm p num s = _
  rw [execOrderDisarm, onRequest_due hdue, (orderIx?_eq_some num n).2 hn]
  simp only [ho, hphase]

theorem exec_orderDisarm_armed (hdue : s.Due p (.orderDisarm num)) (hn : num.toNat = n.val) (ho : s.order n = some o)
    (hphase : o.phase = .armed) :
    exec (.orderDisarm p num) s = .next ((s.disarmOrder n).answer p .ok .empty).settle := by
  show execOrderDisarm p num s = _
  rw [execOrderDisarm, onRequest_due hdue, (orderIx?_eq_some num n).2 hn]
  simp only [ho, hphase]

end

/-- What a disarm does but for its handovers: the order's triggers discarded and its run stopped, then its points released. -/
theorem State.disarmOrder_eq (s : State) (n : OrderIx) :
    s.disarmOrder n =
      (((s.modifyOrder n Order.disarm).stopRun n).releaseHeld (.order n)).raiseAll (s.releaseRaises (.order n)) := rfl

theorem State.order_disarmOrder (s : State) (n m : OrderIx) :
    (s.disarmOrder n).order m = if m = n then (s.order n).map Order.disarm else s.order m := by
  rw [State.disarmOrder_eq, State.order_raiseAll, State.order_releaseHeld, State.order_stopRun, State.order_modifyOrder]

theorem State.slot_disarmOrder (s : State) (n : OrderIx) (i : PointIx) :
    (s.disarmOrder n).slot i = (s.slot i).map fun pt => if pt.heldBy (.order n) then pt.release else pt := by
  rw [State.disarmOrder_eq, State.slot_raiseAll, State.slot_releaseHeld]
  rfl

theorem State.executor_disarmOrder (s : State) (n : OrderIx) :
    (s.disarmOrder n).executor = s.executor.map fun r => if r.order = n then { r with stopping := true } else r :=
  State.raiseAll_executor ..

/-- A disarm changes the points, the orders, the executor and the notice units alone. -/
theorem State.disarmOrder_frame (s : State) (n : OrderIx) :
    { s.disarmOrder n with points := s.points, orders := s.orders, executor := s.executor, notices := s.notices } = s := by
  rw [State.disarmOrder_eq, State.raiseAll_eq]
  rfl

theorem State.disarmOrder_ports (s : State) (n : OrderIx) : (s.disarmOrder n).ports = s.ports := State.raiseAll_ports ..

/-- Settles O41: ORDER_DISARM by the state of its order; a disarm slot by slot and port by port. -/
theorem orderDisarmReleasesItsPoints : Obligations.OrderDisarmReleasesItsPoints := by
  refine fun s p num hdue => ⟨fun hbad => onlyReplies_of (exec_orderDisarm_badArg hdue hbad), fun n hn =>
    ⟨fun ho => onlyReplies_of (exec_orderDisarm_empty hdue hn ho), fun o ho => ?_⟩⟩
  refine ⟨fun hphase => onlyReplies_of (exec_orderDisarm_disarmed hdue hn ho hphase), fun hphase =>
    ⟨_, exec_orderDisarm_retired hdue hn ho hphase, State.setOrder_answered _⟩, fun hphase => ?_⟩
  have hframe := s.disarmOrder_frame n
  refine ⟨_, exec_orderDisarm_armed hdue hn ho hphase, replied_answer (s.disarmOrder_ports n) p _ _, ?_, fun m hm => ?_, ?_,
    fun i => ?_, fun q => ?_, ?_⟩
  · rw [State.order_settle, State.order_answer, State.order_disarmOrder, if_pos rfl, ho]
    rfl
  · rw [State.order_settle, State.order_answer, State.order_disarmOrder, if_neg hm]
  · rw [State.settle_executor, State.answer_executor, State.executor_disarmOrder]
  · rw [State.slot_settle, State.slot_answer, State.slot_disarmOrder]
  · exact State.notices_answered (s.notices_raiseHandovers _ _ q rfl)
  · generalize s.disarmOrder n = w at hframe ⊢
    exact congrArg (fun w : State => { w with ports := s.ports }) hframe

/-! ### SCAN_ARM (R144) -/

section
variable {s : State} {p : Port} {sc : Scanner}

theorem Scanner.holds_iff (sc : Scanner) : sc.holds = true ↔ sc.phase = .armed ∨ sc.phase = .converting := by
  unfold Scanner.holds
  cases sc.phase <;> decide

theorem Scanner.holds_eq_false {sc : Scanner} (h : sc.phase = .defined) : sc.holds = false := by
  simp [Scanner.holds, h]

theorem Scanner.holds_of_ne {sc : Scanner} (h : sc.phase ≠ .defined) : sc.holds = true := by
  simp [Scanner.holds, h]

/-- A SCAN_ARM of an EMPTY scanner, or of one that holds its destinations already. -/
theorem exec_scanArm_state (hdue : s.Due p .scanArm) (h : s.scanner = none ∨ s.scanner.any Scanner.holds = true) :
    exec (.scanArm p) s = .next (s.answer p .state .empty).settle := by
  show execScanArm p s = _
  rw [execScanArm, onRequest_due hdue]
  cases hsc : s.scanner with
  | none => simp only
  | some sc =>
    have hholds : sc.holds = true := by simpa [hsc] using h
    simp only [if_pos hholds]

/-- The first destination that refuses is named in the answer with its entry number, and nothing else happens. -/
theorem exec_scanArm_refused {before after : List PointIx} {i : PointIx} {status : Status} {holder : Option Party}
    (hdue : s.Due p .scanArm) (hsc : s.scanner = some sc) (hphase : sc.phase = .defined)
    (hdests : sc.entries.map ScanEntry.dest = before ++ i :: after) (hbefore : ∀ j ∈ before, s.FreeForInternal j)
    (hi : s.internalRefusal i = some (status, holder)) :
    exec (.scanArm p) s = .next (s.answer p status (.scanArm i before.length holder)).settle := by
  show execScanArm p s = _
  rw [execScanArm, onRequest_due hdue]
  simp only [hsc, Scanner.holds_eq_false hphase, Bool.false_eq_true, if_false, hdests,
    State.firstInternalRefusal_first hbefore hi]

theorem exec_scanArm_granted (hdue : s.Due p .scanArm) (hsc : s.scanner = some sc) (hphase : sc.phase = .defined)
    (hfree : ∀ i ∈ sc.entries.map ScanEntry.dest, s.FreeForInternal i) :
    exec (.scanArm p) s =
      .next (State.answer { s.grantInternal .scanner (sc.entries.map ScanEntry.dest) with scanner := some sc.arm } p .ok
        .empty).settle := by
  show execScanArm p s = _
  rw [execScanArm, onRequest_due hdue]
  simp only [hsc, Scanner.holds_eq_false hphase, Bool.false_eq_true, if_false, State.firstInternalRefusal_free hfree]

/-- The claim of the scanner granted and answered: its record, its destinations, and nothing else. -/
theorem State.armedScanner_answered (s : State) (p : Port) (sc : Scanner) (dests : List PointIx) :
    let t := (State.answer { s.grantInternal .scanner dests with scanner := some sc } p .ok .empty).settle
    Replied s t p .ok .empty ∧ t.scanner = some sc ∧
      (∀ i ∈ dests, t.slot i = (s.slot i).map fun pt => { pt with holder := .scanner, waiters := [] }) ∧
      (∀ i, i ∉ dests → t.slot i = s.slot i) ∧
      { t with points := s.points, scanner := s.scanner, ports := s.ports } = s := by
  refine ⟨replied_answer (State.grantInternal_ports ..) p _ _, rfl, fun i hi => ?_, fun i hi => ?_, ?_⟩
  · rw [State.slot_settle, State.slot_answer]
    exact (s.slot_grantInternal _ _ i).trans (if_pos hi)
  · rw [State.slot_settle, State.slot_answer]
    exact (s.slot_grantInternal _ _ i).trans (if_neg hi)
  · rw [State.grantInternal_eq]
    rfl

/-! ### SCAN_DISARM (R152) -/

theorem exec_scanDisarm_empty (hdue : s.Due p .scanDisarm) (hsc : s.scanner = none) :
    exec (.scanDisarm p) s = .next (s.answer p .state .empty).settle := by
  show execScanDisarm p s = _
  rw [execScanDisarm, onRequest_due hdue]
  simp only [hsc]

theorem exec_scanDisarm_defined (hdue : s.Due p .scanDisarm) (hsc : s.scanner = some sc) (hphase : sc.phase = .defined) :
    exec (.scanDisarm p) s = .next (s.answer p .ok .empty).settle := by
  show execScanDisarm p s = _
  rw [execScanDisarm, onRequest_due hdue]
  simp only [hsc, Scanner.holds_eq_false hphase, Bool.false_eq_true, if_false]

theorem exec_scanDisarm_released (hdue : s.Due p .scanDisarm) (hsc : s.scanner = some sc) (hphase : sc.phase ≠ .defined) :
    exec (.scanDisarm p) s = .next ((s.disarmScanner sc).answer p .ok .empty).settle := by
  show execScanDisarm p s = _
  rw [execScanDisarm, onRequest_due hdue]
  simp only [hsc, Scanner.holds_of_ne hphase, if_true]

/-- The scanner's release: its record becomes DEFINED, its points are released, and their heirs are told. -/
theorem State.disarmScanner_eq (s : State) (sc : Scanner) :
    s.disarmScanner sc =
      (State.releaseHeld { s with scanner := some (sc.abandon .defined) } .scanner).raiseAll (s.releaseRaises .scanner) := rfl

theorem State.slot_disarmScanner (s : State) (sc : Scanner) (i : PointIx) :
    (s.disarmScanner sc).slot i = (s.slot i).map fun pt => if pt.heldBy .scanner then pt.release else pt := by
  rw [State.disarmScanner_eq, State.slot_raiseAll, State.slot_releaseHeld]
  rfl

theorem State.scanner_disarmScanner (s : State) (sc : Scanner) :
    (s.disarmScanner sc).scanner = some { sc with phase := .defined, current := 0, pendingPass := false } :=
  State.raiseAll_scanner ..

theorem State.disarmScanner_ports (s : State) (sc : Scanner) : (s.disarmScanner sc).ports = s.ports :=
  State.raiseAll_ports ..

/-- The scanner's release changes the points, the scanner and the notice units alone. -/
theorem State.disarmScanner_frame (s : State) (sc : Scanner) :
    { s.disarmScanner sc with points := s.points, scanner := s.scanner, notices := s.notices } = s := by
  rw [State.disarmScanner_eq, State.raiseAll_eq]
  rfl

/-! ### SCAN_START, SCAN_STOP and SCAN_QUERY (R146, R151, R153) -/

/-- A scanner that does not hold its destinations is EMPTY or DEFINED. -/
theorem State.scanner_idle (h : s.scanner.any Scanner.holds = false) :
    s.scanner = none ∨ ∃ sc, s.scanner = some sc ∧ sc.phase = .defined := by
  cases hsc : s.scanner with
  | none => exact .inl rfl
  | some sc => exact .inr ⟨sc, rfl, by simpa [hsc, Scanner.holds] using h⟩

theorem exec_scanStart_state (hdue : s.Due p .scanStart) (h : s.scanner.any Scanner.holds = false) :
    exec (.scanStart p) s = .next (s.answer p .state .empty).settle := by
  show execScanStart p s = _
  rw [execScanStart, onRequest_due hdue]
  obtain hsc | ⟨sc, hsc, hphase⟩ := State.scanner_idle h
  · simp only [hsc]
  · simp only [hsc, Scanner.holds_eq_false hphase, Bool.not_false, if_true]

/-- A SCAN_START of a scanner that holds its destinations is one trigger taken by it (R146). -/
theorem exec_scanStart_taken (hdue : s.Due p .scanStart) (hsc : s.scanner = some sc) (hphase : sc.phase ≠ .defined) :
    exec (.scanStart p) s =
      .next (State.answer { s with scanner := some sc.accept } p .ok
        (.scanStart sc.accept.phase sc.accept.pendingPass sc.accept.missed)).settle := by
  show execScanStart p s = _
  rw [execScanStart, onRequest_due hdue]
  simp only [hsc, Scanner.holds_of_ne hphase, Bool.not_true, Bool.false_eq_true, if_false]

theorem exec_scanStop_state (hdue : s.Due p .scanStop) (h : s.scanner.any Scanner.holds = false) :
    exec (.scanStop p) s = .next (s.answer p .state .empty).settle := by
  show execScanStop p s = _
  rw [execScanStop, onRequest_due hdue]
  obtain hsc | ⟨sc, hsc, hphase⟩ := State.scanner_idle h
  · simp only [hsc]
  · simp only [hsc, hphase]

theorem exec_scanStop_armed (hdue : s.Due p .scanStop) (hsc : s.scanner = some sc) (hphase : sc.phase = .armed) :
    exec (.scanStop p) s = .next (s.answer p .ok .empty).settle := by
  show execScanStop p s = _
  rw [execScanStop, onRequest_due hdue]
  simp only [hsc, hphase]

theorem exec_scanStop_converting (hdue : s.Due p .scanStop) (hsc : s.scanner = some sc) (hphase : sc.phase = .converting) :
    exec (.scanStop p) s = .next (State.answer { s with scanner := some (sc.abandon .armed) } p .ok .empty).settle := by
  show execScanStop p s = _
  rw [execScanStop, onRequest_due hdue]
  simp only [hsc, hphase]

theorem exec_scanQuery_due (hdue : s.Due p .scanQuery) :
    exec (.scanQuery p) s = .next (s.answer p .ok (.scanner s.scanner)).settle := by
  show execScanQuery p s = _
  rw [execScanQuery, onRequest_due hdue]

end

/-- Settles O47: each request of the scanner by its state: refused, answered alone, or the record and the claims it changes. -/
theorem scannerRequestsByState : Obligations.ScannerRequestsByState := by
  refine ⟨Scanner.holds_iff, ⟨fun s p hdue => ⟨fun h => onlyReplies_of (exec_scanArm_state hdue h), fun sc hsc hphase =>
      ⟨fun before i after hdests hbefore => ?_, fun hfree =>
        ⟨_, exec_scanArm_granted hdue hsc hphase hfree, s.armedScanner_answered p sc.arm _⟩⟩⟩,
    fun s p hdue => ⟨fun hsc => onlyReplies_of (exec_scanDisarm_empty hdue hsc), fun sc hsc =>
      ⟨fun hphase => onlyReplies_of (exec_scanDisarm_defined hdue hsc hphase), fun hphase => ?_⟩⟩⟩,
    fun s p hdue => ⟨fun h => onlyReplies_of (exec_scanStart_state hdue h), fun sc hsc hphase =>
      ⟨_, exec_scanStart_taken hdue hsc hphase, rfl, replied_answer rfl p _ _, rfl⟩⟩,
    fun s p hdue => ⟨fun h => onlyReplies_of (exec_scanStop_state hdue h), fun sc hsc =>
      ⟨fun hphase => onlyReplies_of (exec_scanStop_armed hdue hsc hphase), fun hphase =>
        ⟨_, exec_scanStop_converting hdue hsc hphase, replied_answer rfl p _ _, rfl, rfl⟩⟩⟩,
    fun s p hdue => onlyReplies_of (exec_scanQuery_due hdue)⟩
  · have hexec := fun status holder =>
      exec_scanArm_refused (status := status) (holder := holder) hdue hsc hphase hdests hbefore
    exact ⟨fun hslot => onlyReplies_of (hexec _ _ (State.internalRefusal_undefined hslot)), fun pt hpt =>
      ⟨fun hright => onlyReplies_of (hexec _ _ (State.internalRefusal_noRight hpt hright)), fun w hright hparty =>
        onlyReplies_of (hexec _ _ (State.internalRefusal_held hpt hright hparty))⟩⟩
  · have hframe := s.disarmScanner_frame sc
    refine ⟨_, exec_scanDisarm_released hdue hsc hphase, replied_answer (s.disarmScanner_ports sc) p _ _, ?_, fun i => ?_,
      fun q => ?_, ?_⟩
    · rw [State.settle_scanner, State.answer_scanner, State.scanner_disarmScanner]
    · rw [State.slot_settle, State.slot_answer, State.slot_disarmScanner]
    · exact State.notices_answered (s.notices_raiseHandovers _ _ q rfl)
    · generalize s.disarmScanner sc = w at hframe ⊢
      exact congrArg (fun w : State => { w with ports := s.ports }) hframe

end Sys2Proof.Machine

/-! PROOFS. The tick at the claim arbiter, and the reset of a port at every owner. -/

namespace Sys2Proof.Machine

/-! ### One point at a tick of the claim arbiter (R50, R51) -/

section
variable {pt : Point} {c : PortClaim} {l : Lease}

/-- A lease lapses at the tick that would take its last remaining tick (R50). -/
theorem Point.lapsing_of_lease (hholder : pt.holder = .port c) (hlease : c.lease = some l) :
    pt.lapsing = if l.remaining ≤ 1 then some c.port else none := by
  simp [Point.lapsing, hholder, hlease, Lease.lapses]

/-- A claim without a lease never lapses. -/
theorem Point.lapsing_no_lease (hholder : pt.holder = .port c) (hlease : c.lease = none) : pt.lapsing = none := by
  simp [Point.lapsing, hholder, hlease]

/-- Only a port's claim lapses. -/
theorem Point.lapsing_no_port (h : ∀ c, pt.holder ≠ .port c) : pt.lapsing = none := by
  unfold Point.lapsing
  split
  · exact absurd ‹_› (h _)
  · rfl

/-- The lease part of a tick at a point whose claim lapses. -/
theorem Point.afterLeases_lapsed {q : Port} (h : pt.lapsing = some q) : pt.afterLeases = pt.release := by
  simp [Point.afterLeases, h]

/-- The lease part of a tick at any other point. -/
theorem Point.afterLeases_kept (h : pt.lapsing = none) : pt.afterLeases = { pt with holder := pt.holder.countDown } := by
  simp [Point.afterLeases, h]

theorem Holder.countDown_no_port {h : Holder} (hport : ∀ c, h ≠ .port c) : h.countDown = h := by
  cases h with
  | port c => exact absurd rfl (hport c)
  | _ => rfl

theorem Holder.countDown_no_lease (h : c.lease = Option.none) : (Holder.port c).countDown = .port c := by
  obtain ⟨port, lease, mode⟩ := c
  cases h
  rfl

/-- The wait part of a tick: the waits that do not expire are counted down, in their order (R51). -/
theorem Point.counted_of_leases {x : Point} (h : pt.afterLeases = x) :
    pt.counted =
      { x with waiters := (x.waiters.filter fun w => 1 < w.remaining).map fun w => { w with remaining := w.remaining - 1 } } := by
  have hexpires : ∀ w : Wait, (!w.expires) = decide (1 < w.remaining) := fun w => by
    simp [Wait.expires, ← decide_not]
  simp only [Point.counted, h, hexpires]
  rfl

/-- The point passed on keeps the waits behind its new holder. -/
theorem Point.waiters_release (pt : Point) : pt.release.waiters = pt.waiters.tail := by
  unfold Point.release
  split
  · rename_i h
    simp only [h, List.tail_nil]
  · rename_i h
    simp only [h, List.tail_cons]

theorem Point.expiring_of_leases {ws : List Wait} (h : pt.afterLeases.waiters = ws) :
    pt.expiring = (ws.filter fun w => w.remaining ≤ 1).map Wait.port := by
  unfold Point.expiring
  rw [h]
  rfl

end

/-! ### The tick at the claim arbiter (R50, R51, R81) -/

section
variable {s : State}

theorem exec_claimArbiterTick_due (hheld : s.held = false) (hdue : s.arbiterDue = true) :
    exec .claimArbiterTick s = .next s.arbiterTick.settle := by
  show execClaimArbiterTick s = _
  rw [execClaimArbiterTick, hdue, event_due hheld]

/-- LEASE_LAPSE names the tick at a point whose claim lapses (log 8). -/
theorem exec_leaseLapse_due {i : PointIx} {pt : Point} (hheld : s.held = false) (hdue : s.arbiterDue = true)
    (hpt : s.slot i = some pt) (hlapses : pt.lapsing.isSome) : exec (.leaseLapse i) s = .next s.arbiterTick.settle := by
  show execLeaseLapse i s = _
  rw [execLeaseLapse, hdue, hpt, Option.any_some, hlapses, Bool.and_self, event_due hheld]

/-- WAIT_EXPIRY names the tick at a point on which the port's wait expires (log 8). -/
theorem exec_waitExpiry_due {i : PointIx} {q : Port} {pt : Point} (hheld : s.held = false) (hdue : s.arbiterDue = true)
    (hpt : s.slot i = some pt) (hexpires : q ∈ pt.expiring) : exec (.waitExpiry i q) s = .next s.arbiterTick.settle := by
  show execWaitExpiry i q s = _
  rw [execWaitExpiry, hdue, hpt, Option.any_some, List.contains_iff_mem.2 hexpires, Bool.and_self, event_due hheld]

/-- The tick lowers the count of a port by its claims that lapse and its waits that expire (R35). -/
theorem State.counts_arbiterTick (s : State) (q : Port) :
    s.arbiterTick.counts.get q = s.counts.get q -
      (((List.finRange 512).countP fun i => (s.slot i).any fun pt => pt.lapsing = some q) +
        (List.finRange 512).countP fun i => (s.slot i).any fun pt => pt.expiring.contains q) := by
  rw [← State.countP_finRange, ← State.countP_finRange]
  unfold State.arbiterTick
  dsimp only
  rw [State.raiseAll_counts, PerPort.get_map]
  rfl

/-- The notice units after the tick: each takes the causes of its port, point by point. -/
theorem State.notices_arbiterTick (s : State) (q : Port) :
    s.arbiterTick.notices.get q = (s.notices.get q).takeAll s.arbiterTick (raisedFor q s.arbiterRaises) :=
  State.raiseAll_notices_get _ _ _ (State.raiseAll_points ..) (State.raiseAll_orders ..) q

theorem State.arbiterTick_ports (s : State) : s.arbiterTick.ports = s.ports := State.raiseAll_ports ..

/-- The tick takes one of those due at the claim arbiter (R159, log 6). -/
theorem State.tickGen_arbiterTick (s : State) :
    s.arbiterTick.tickGen = { s.tickGen with dueArbiter := s.tickGen.dueArbiter - 1 } := State.raiseAll_tickGen ..

/-- The tick changes the points, the counts, the notice units and the ticks due alone. -/
theorem State.arbiterTick_frame (s : State) :
    { s.arbiterTick with points := s.points, counts := s.counts, notices := s.notices, tickGen := s.tickGen } = s := by
  unfold State.arbiterTick
  dsimp only
  rw [State.raiseAll_eq]
  rfl

end

/-- What a tick at one point raises for one port: a lapse, a handover, an expiry (R50, R51). -/
theorem mem_tickCauses (q : Port) (pt : Point) (i : PointIx) (subject : Subject) (c : Cause) :
    (subject, c) ∈ raisedFor q (pt.tickRaises i) ↔ subject = .point i ∧
      ((c = .claimLapsed ∧ pt.lapsing = some q) ∨
        (c = .claimGranted ∧ pt.lapsing.isSome ∧ pt.waiting.head? = some q) ∨ (c = .waitExpired ∧ q ∈ pt.expiring)) := by
  have hexpired : (subject, c) ∈ ((pt.expiring.filter fun w => w = q).map fun _ => (Subject.point i, Cause.waitExpired)) ↔
      subject = .point i ∧ c = .waitExpired ∧ q ∈ pt.expiring := by
    simp only [List.mem_map, List.mem_filter, decide_eq_true_eq, Prod.mk.injEq]
    constructor
    · rintro ⟨w, ⟨hw, rfl⟩, rfl, rfl⟩
      exact ⟨rfl, rfl, hw⟩
    · rintro ⟨rfl, rfl, hq⟩
      exact ⟨q, ⟨hq, rfl⟩, rfl, rfl⟩
  rw [raisedFor_tickRaises, List.mem_append, List.mem_append, hexpired]
  simp only [List.mem_ite_nil_right, List.mem_singleton, Prod.mk.injEq]
  tauto

/-- The causes of a tick for one port are those of the points (R81). -/
theorem mem_arbiterCauses (s : State) (q : Port) (subject : Subject) (c : Cause) :
    (subject, c) ∈ raisedFor q s.arbiterRaises ↔ ∃ i, subject = .point i ∧ ∃ pt ∈ s.slot i,
      (c = .claimLapsed ∧ pt.lapsing = some q) ∨
        (c = .claimGranted ∧ pt.lapsing.isSome ∧ pt.waiting.head? = some q) ∨ (c = .waitExpired ∧ q ∈ pt.expiring) := by
  rw [raisedFor_arbiterRaises]
  simp only [List.mem_flatMap, List.mem_finRange, true_and, Option.mem_toList, mem_tickCauses, Option.mem_def]
  refine exists_congr fun i => ?_
  constructor
  · rintro ⟨pt, hpt, hsubject, hcause⟩
    exact ⟨hsubject, pt, hpt, hcause⟩
  · rintro ⟨hsubject, pt, hpt, hcause⟩
    exact ⟨pt, hpt, hsubject, hcause⟩

/-- Settles O51: the three commands are one event, read slot by slot and port by port, and one point at a tick case by case. -/
theorem arbiterTickCountsDown : Obligations.ArbiterTickCountsDown := by
  refine ⟨fun s hheld hdue => ?_, fun pt => ?_⟩
  · intro causes
    have hcauses : ∀ q, raisedFor q s.arbiterRaises = causes q := fun q => by
      rw [raisedFor_arbiterRaises]
      simp only [raisedFor_tickRaises]
      rfl
    have hframe := s.arbiterTick_frame
    refine ⟨fun q subject c => ?_, _, exec_claimArbiterTick_due hheld hdue, quiet_settle s.arbiterTick_ports,
      fun i pt hpt => exec_leaseLapse_due hheld hdue hpt, fun i pt hpt q => exec_waitExpiry_due hheld hdue hpt, fun i => ?_,
      fun q => ?_, fun q => ?_, ?_, ?_⟩
    · rw [← hcauses]
      exact mem_arbiterCauses s q subject c
    · rw [State.slot_settle, State.slot_arbiterTick]
    · rw [State.settle_counts, State.counts_arbiterTick]
    · rw [← hcauses]
      exact State.notices_settled (s.notices_arbiterTick q)
    · rw [State.settle_tickGen, State.tickGen_arbiterTick]
    · generalize s.arbiterTick = w at hframe ⊢
      exact congrArg (fun w : State => { w with ports := s.ports }) hframe
  · refine ⟨?_, ?_, ?_, ?_, ?_, ?_⟩
    · intro c l hholder hlease hlast
      have hlapsing : pt.lapsing = some c.port := by rw [Point.lapsing_of_lease hholder hlease, if_pos (Nat.le_of_eq hlast)]
      exact ⟨Point.counted_of_leases (Point.afterLeases_lapsed hlapsing), hlapsing⟩
    · intro c l hholder hlease hmore
      have hlapsing : pt.lapsing = none := by rw [Point.lapsing_of_lease hholder hlease, if_neg (Nat.not_le.2 hmore)]
      refine ⟨Point.counted_of_leases ((Point.afterLeases_kept hlapsing).trans ?_), hlapsing⟩
      simp only [hholder, Holder.countDown, hlease, Option.map_some]
    · intro c hholder hlease
      have hlapsing := Point.lapsing_no_lease hholder hlease
      refine ⟨Point.counted_of_leases ((Point.afterLeases_kept hlapsing).trans ?_), hlapsing⟩
      rw [hholder, Holder.countDown_no_lease hlease, ← hholder]
    · intro hport
      have hlapsing := Point.lapsing_no_port hport
      refine ⟨Point.counted_of_leases ((Point.afterLeases_kept hlapsing).trans ?_), hlapsing⟩
      rw [Holder.countDown_no_port hport]
    · exact fun hnone => Point.expiring_of_leases (by rw [Point.afterLeases_kept hnone])
    · exact fun q hlapsing => Point.expiring_of_leases (by rw [Point.afterLeases_lapsed hlapsing, Point.waiters_release])

/-! ### The end of an event and the owners -/

/-- The attention lines are evaluated at the ports alone (R182). -/
theorem State.settle_owners (w : State) (ports : PerPort PortState) :
    { w.settle with ports := ports } = { w with ports := ports } := rfl

/-- An answer is given at a port alone (R177). -/
theorem State.answer_owners (w : State) (p : Port) (status : Status) (body : Body) (ports : PerPort PortState) :
    { (w.answer p status body).settle with ports := ports } = { w with ports := ports } := rfl

/-! ### The event of a port reset at every owner (R56, R69, R92, R188, R189, R200) -/

section
variable (s : State) (p : Port) (window : List Entry)

/-- A port reset but for its handovers: what each owner holds for the port ends. -/
def State.portEnded : State :=
  let w := (((s.mapPoints fun pt => pt.afterPortReset p).setCount p 0).setBatch p none).setNotices p .reset
  w.setPort p ((s.ports.get p).afterPortReset window)

theorem State.portReset_eq : s.portReset p window = (s.portEnded p window).raiseAll (s.portResetRaises p) := rfl

theorem State.counts_portReset (o : Port) : (s.portReset p window).counts.get o = if o = p then 0 else s.counts.get o := by
  rw [State.portReset_eq, State.raiseAll_counts]
  exact PerPort.get_set s.counts p o 0

theorem State.batches_portReset (o : Port) :
    (s.portReset p window).batches.get o = if o = p then none else s.batches.get o := by
  rw [State.portReset_batches, PerPort.get_set]

theorem State.ports_portReset (o : Port) :
    (s.portReset p window).ports.get o = if o = p then (s.ports.get p).afterPortReset window else s.ports.get o := by
  rw [State.portReset_eq, State.raiseAll_ports]
  exact PerPort.get_set s.ports p o _

/-- The notice units after a port reset: the port's is empty, and each heir is told, in ascending order (R46, R47, R92). -/
theorem State.notices_portReset (o : Port) :
    (s.portReset p window).notices.get o =
      (if o = p then NoticeUnit.reset else s.notices.get o).takeAll (s.portReset p window)
        (s.grantsFor o fun pt => if pt.heldBy (.port p) then (pt.waiting.filter fun w => w ≠ p).head? else none) := by
  have hbase : (s.portEnded p window).notices.get o = if o = p then NoticeUnit.reset else s.notices.get o :=
    PerPort.get_set s.notices p o .reset
  rw [← raisedFor_portResetRaises, ← hbase]
  exact State.raiseAll_notices_get _ _ _ (State.raiseAll_points ..) (State.raiseAll_orders ..) o

/-- A port reset changes the points, the counts, the batches, the notice units and the ports alone. -/
theorem State.portReset_frame :
    { s.portReset p window with
      points := s.points, counts := s.counts, batches := s.batches, notices := s.notices, ports := s.ports } = s := by
  rw [State.portReset_eq, State.raiseAll_eq]
  rfl

/-- What a port reset leaves at every owner but the ports, at the end of the event, answered or not. -/
theorem State.portReset_outcome {t : State}
    (ht : { t with ports := s.ports } = { s.portReset p window with ports := s.ports }) :
    (∀ i, t.slot i = (s.slot i).map fun pt =>
       let left : Point := { pt with waiters := pt.waiters.filter fun w => w.port ≠ p }
       if pt.heldBy (.port p) then left.release else left) ∧
      (∀ o, t.counts.get o = if o = p then 0 else s.counts.get o) ∧
      (∀ o, t.batches.get o = if o = p then none else s.batches.get o) ∧
      (∀ o, t.notices.get o =
        (if o = p then NoticeUnit.reset else s.notices.get o).takeAll t
          (s.grantsFor o fun pt => if pt.heldBy (.port p) then (pt.waiting.filter fun w => w ≠ p).head? else none)) ∧
      { t with points := s.points, counts := s.counts, batches := s.batches, notices := s.notices, ports := s.ports } = s := by
  have hframe := s.portReset_frame p window
  have hslot := s.slot_portReset p window
  have hcounts := s.counts_portReset p window
  have hbatches := s.batches_portReset p window
  have hnotices := s.notices_portReset p window
  generalize s.portReset p window = w at ht hframe hslot hcounts hbatches hnotices
  have hpoints : t.points = w.points := (congrArg State.points ht :)
  have horders : t.orders = w.orders := (congrArg State.orders ht :)
  have hc : t.counts = w.counts := (congrArg State.counts ht :)
  have hb : t.batches = w.batches := (congrArg State.batches ht :)
  have hn : t.notices = w.notices := (congrArg State.notices ht :)
  refine ⟨fun i => (State.slot_congr hpoints i).trans (hslot i), fun o => hc ▸ hcounts o, fun o => hb ▸ hbatches o, fun o => ?_,
    ?_⟩
  · rw [hn, hnotices]
    exact (NoticeUnit.takeAll_congr (State.subjectState_congr hpoints horders) _ _).symm
  · exact (congrArg (fun x : State => { x with
      points := s.points, counts := s.counts, batches := s.batches, notices := s.notices }) ht).trans hframe

end

/-! ### PORT_RESET and FORCE_PORT_RESET (R188, R189) -/

section
variable {s : State} {p q : Port} {target : Byte}

theorem exec_portReset_due (hdue : s.Due p .portReset) :
    exec (.portReset p) s = .next (s.portReset p (ownEntry (s.ports.get p).window)).settle := by
  show execPortReset p s = _
  rw [execPortReset, onRequest_due hdue]
  rfl

/-- A port that forces its own reset resets itself. -/
theorem exec_forcePortReset_own (hdue : s.Due p (.forcePortReset target)) (htarget : target = portCode p) :
    exec (.forcePortReset p target) s = .next (s.portReset p (ownEntry (s.ports.get p).window)).settle := by
  show execForcePortReset p target s = _
  rw [execForcePortReset, onRequest_due hdue, (port?_eq_some target p).2 htarget]
  simp only [if_true]
  rfl

theorem exec_forcePortReset_other (hdue : s.Due p (.forcePortReset target)) (htarget : target = portCode q) (hq : q ≠ p) :
    exec (.forcePortReset p target) s = .next ((s.portReset q []).answer p .ok .empty).settle := by
  show execForcePortReset p target s = _
  rw [execForcePortReset, onRequest_due hdue, (port?_eq_some target q).2 htarget]
  simp only [if_neg hq]

theorem exec_forcePortReset_badArg (hdue : s.Due p (.forcePortReset target)) (h : port? target = none) :
    exec (.forcePortReset p target) s = .next (s.answer p .badArg .empty).settle := by
  show execForcePortReset p target s = _
  rw [execForcePortReset, onRequest_due hdue, h]

/-- The entry that a port's own reset keeps: its oldest ACCEPTED one, answered (R188). -/
theorem ownEntry_first (before after : List Entry) (seq : Byte) (r : Request) (h : ∀ e ∈ before, Entry.isAnswered e = true) :
    ownEntry (before ++ .accepted seq r :: after) = [.answered seq .ok .empty] := by
  induction before with
  | nil => rfl
  | cons e before ih =>
    have htail := ih fun x hx => h x (List.mem_cons_of_mem _ hx)
    cases e with
    | accepted => exact absurd (h _ (List.mem_cons_self ..)) Bool.false_ne_true
    | answered => exact htail

/-- A port that has been reset, and the others, when the port keeps its own entry. -/
theorem State.ports_resetOwn (s : State) (p : Port) (window : List Entry) :
    let t := (s.portReset p window).settle
    t.ports.get p =
        { s.ports.get p with
          window := window
          exchange := (s.ports.get p).exchange.map fun x => { x with carries := false, clearsReset := false }
          resetFlag := true
          staged := []
          attn := attnLevel (t.ports.get p) (t.notices.get p) } ∧
      ∀ o, o ≠ p → t.ports.get o =
        { s.ports.get o with
          window := if o = p then answerOldest .ok .empty (s.ports.get o).window else (s.ports.get o).window
          attn := attnLevel (t.ports.get o) (t.notices.get o) } := by
  refine ⟨?_, fun o ho => ?_⟩
  · refine (State.ports_settle _ p).trans ?_
    rw [State.ports_portReset, if_pos rfl]
    rfl
  · refine (State.ports_settle _ o).trans ?_
    rw [State.ports_portReset, if_neg ho, if_neg ho]

/-- The same when another port forces the reset and is answered. -/
theorem State.ports_resetOther (s : State) (p q : Port) (hq : q ≠ p) :
    let t := ((s.portReset q []).answer p .ok .empty).settle
    t.ports.get q =
        { s.ports.get q with
          window := []
          exchange := (s.ports.get q).exchange.map fun x => { x with carries := false, clearsReset := false }
          resetFlag := true
          staged := []
          attn := attnLevel (t.ports.get q) (t.notices.get q) } ∧
      ∀ o, o ≠ q → t.ports.get o =
        { s.ports.get o with
          window := if o = p then answerOldest .ok .empty (s.ports.get o).window else (s.ports.get o).window
          attn := attnLevel (t.ports.get o) (t.notices.get o) } := by
  have hanswered : ∀ o, ((s.portReset q []).answer p .ok .empty).ports.get o =
      if o = p then { (s.portReset q []).ports.get p with
        window := answerOldest .ok .empty ((s.portReset q []).ports.get p).window }
      else (s.portReset q []).ports.get o := fun o => PerPort.get_set _ p o _
  refine ⟨?_, fun o ho => ?_⟩
  · refine (State.ports_settle _ q).trans ?_
    rw [hanswered, if_neg hq, State.ports_portReset, if_pos rfl]
    rfl
  · refine (State.ports_settle _ o).trans ?_
    by_cases hop : o = p
    · subst hop
      rw [hanswered, if_pos rfl, if_pos rfl, State.ports_portReset, if_neg ho]
    · rw [hanswered, if_neg hop, if_neg hop, State.ports_portReset, if_neg ho]

end

/-- Settles O58: a port reset at every owner, then at the ports: the port's own reset, and one that another port forces. -/
theorem portResetEndsThePortsState : Obligations.PortResetEndsThePortsState := by
  refine ⟨fun s p q c window h => ?_, fun s p target hdue hbad =>
    onlyReplies_of (exec_forcePortReset_badArg hdue ((port?_eq_none target).2 hbad)),
    fun before seq r after h => ownEntry_first before after seq r h⟩
  obtain ⟨hdue, rfl, rfl, rfl⟩ | ⟨target, hdue, rfl, htarget, rfl⟩ := h
  · obtain ⟨hself, hothers⟩ := s.ports_resetOwn q (ownEntry (s.ports.get q).window)
    exact ⟨_, exec_portReset_due hdue, hself, hothers, s.portReset_outcome q _ (State.settle_owners ..)⟩
  · by_cases hq : q = p
    · subst hq
      obtain ⟨hself, hothers⟩ := s.ports_resetOwn q (ownEntry (s.ports.get q).window)
      rw [if_pos rfl]
      exact ⟨_, exec_forcePortReset_own hdue htarget, hself, hothers, s.portReset_outcome q _ (State.settle_owners ..)⟩
    · obtain ⟨hself, hothers⟩ := s.ports_resetOther p q hq
      rw [if_neg hq]
      exact ⟨_, exec_forcePortReset_other hdue htarget hq, hself, hothers, s.portReset_outcome q [] (State.answer_owners ..)⟩

end Sys2Proof.Machine

/-! PROOFS. The end of a run: the source base after it, and the event of its last copy in the order of R131. -/

namespace Sys2Proof.Machine

/-! ### The source base after a run (R132) -/

section
variable {o : Order}

theorem Order.nextBase_fixed (h : o.defn.step = .fixed) : o.nextBase = o.defn.source := by
  simp only [Order.nextBase, h]

/-- STEP goes back to the source when the next run would pass the end of the table. -/
theorem Order.nextBase_step_back (h : o.defn.step = .step) (hpast : 511 < o.base.val + 2 * o.defn.runLength - 1) :
    o.nextBase = o.defn.source := by
  simp only [Order.nextBase, h, if_pos hpast]

theorem Order.nextBase_step_on (h : o.defn.step = .step) (hwithin : o.base.val + 2 * o.defn.runLength - 1 ≤ 511)
    (hpos : 1 ≤ o.defn.runLength) : o.nextBase.val = o.base.val + o.defn.runLength := by
  simp only [Order.nextBase, h, if_neg (Nat.not_lt.2 hwithin)]
  exact PointIx.val_plus (by omega)

/-- STEP_WRAP goes back to the source after its count of runs. -/
theorem Order.nextBase_wrap_back {w : Nat} (h : o.defn.step = .stepWrap w)
    (hlast : o.base.val + o.defn.runLength = o.defn.source.val + w * o.defn.runLength) : o.nextBase = o.defn.source := by
  simp only [Order.nextBase, h, if_pos hlast]

theorem Order.nextBase_wrap_on {w : Nat} (h : o.defn.step = .stepWrap w)
    (hmore : o.base.val + o.defn.runLength ≠ o.defn.source.val + w * o.defn.runLength)
    (hwithin : o.base.val + o.defn.runLength ≤ 511) : o.nextBase.val = o.base.val + o.defn.runLength := by
  simp only [Order.nextBase, h, if_neg hmore]
  exact PointIx.val_plus (by omega)

end

/-! ### The order at the end of its run (R131, R133) -/

/-- An order retires when its repeat count is not endless and its last run ends. -/
theorem Order.retires_iff (o : Order) : o.retires = true ↔ o.defn.runs ≠ 0 ∧ o.remaining - 1 = 0 := by
  unfold Order.retires Order.endRun
  by_cases hruns : o.defn.runs = 0 <;> simp [hruns]

/-- The report of a copy counts a fault and changes nothing that the end of a run reads. -/
theorem Order.report_eq (o : Order) (x : CopyOutcome) :
    o.report x = { o with faults := if x = .fault then countUp o.faults else o.faults } := by
  unfold Order.report
  split <;> rfl

theorem Order.retires_report (o : Order) (x : CopyOutcome) : (o.report x).retires = o.retires := by
  rw [Order.report_eq]
  rfl

/-- The order counted at the end of a run, with the report of its last copy. -/
theorem Order.endRun_report (o : Order) (x : CopyOutcome) :
    (o.report x).endRun =
      { o with
        runsDone := o.runsDone + 1
        base := o.nextBase
        remaining := if o.defn.runs = 0 then o.remaining else o.remaining - 1
        faults := if x = .fault then countUp o.faults else o.faults } := by
  rw [Order.report_eq]
  rfl

/-- The last of two replacements of an order slot stands. -/
theorem State.setOrder_setOrder (s : State) (n : OrderIx) (x y : Option Order) :
    (s.setOrder n x).setOrder n y = s.setOrder n y := by
  simp only [State.setOrder, Vector.set_set]

/-! ### The event of the last copy (R131, R134, R139) -/

section
variable {s : State} {r : Run} {o x : Order}

/-- The state of the last copy event after the order is counted or retired, and its points released when it retires. -/
def State.runCounted (w : State) (n : OrderIx) (y : Order) : State :=
  if y.retires then (w.setOrder n (some y.endRun.retire)).releaseHeld (.order n) else w.setOrder n (some y.endRun)

theorem State.reported_eq (hx : (s.applyCopy (s.copyOutcome r.order o r.position)).order r.order = some x) :
    s.reported r o = (s.applyCopy (s.copyOutcome r.order o r.position)).setOrder r.order
      (some (x.report (s.copyOutcome r.order o r.position))) := by
  unfold State.reported State.modifyOrder
  rw [hx]
  rfl

/-- The end of a run, in the order of R131: the order counted or retired, the chain line pulsed, the executor free to choose. -/
theorem State.endRun_eq (w : State) (n : OrderIx) (y : Order) (z : Option Order) :
    (w.setOrder n z).endRun n y = ((w.runCounted n y).pulse y.defn.chain).freeExecutor := by
  unfold State.endRun State.runCounted
  simp only [State.setOrder_setOrder]

/-- The end of a run leaves the ports and the notice units alone. -/
theorem State.ports_ended (w : State) (n : OrderIx) (y : Order) :
    ((w.runCounted n y).pulse y.defn.chain).freeExecutor.ports = w.ports := by
  rw [← State.endRun_eq w n y none]
  exact (congrArg State.ports (State.endRun_frame (w.setOrder n none) n y) :)

theorem State.notices_ended (w : State) (n : OrderIx) (y : Order) :
    ((w.runCounted n y).pulse y.defn.chain).freeExecutor.notices = w.notices := by
  rw [← State.endRun_eq w n y none]
  exact State.endRun_notices ..

/-- The causes of the last copy of a run, whose write leaves the state w (R81, log 15): the handovers of a retirement, the causes
of the write, and then those of the order. -/
def State.endRaises (s w : State) (n : OrderIx) (x : Order) (c : CopyOutcome) : List Raise :=
  (if x.retires then w.releaseRaises (.order n) else []) ++ s.copyRaises c ++ orderRaises x.defn.owner n c x.retires

/-- The causes of the last copy for one port. -/
theorem raisedFor_endRaises (s w : State) (n : OrderIx) (x : Order) (c : CopyOutcome) (q : Port) :
    raisedFor q (s.endRaises w n x c) =
      (if x.defn.runs ≠ 0 ∧ x.remaining - 1 = 0 then
          w.grantsFor q fun pt => if pt.heldBy (.order n) then pt.waiting.head? else none else []) ++
        raisedFor q (s.copyRaises c ++ (if c = .fault then [⟨x.defn.owner, .order n, .orderFault⟩] else []) ++
          if x.defn.runs ≠ 0 ∧ x.remaining - 1 = 0 then [⟨x.defn.owner, .order n, .orderRetired⟩] else []) := by
  simp only [← Order.retires_iff]
  rw [State.endRaises, List.append_assoc, raisedFor_append, apply_ite (raisedFor q), raisedFor_releaseRaises, orderRaises,
    List.append_assoc]
  rfl

/-- The last copy of a run that is not stopped: the end of the run, and then its causes. -/
theorem exec_orderCopy_ends {c : CopyOutcome} {w : State} (hheld : s.held = false) (hr : s.executor = some r)
    (ho : s.order r.order = some o) (hstop : r.stopping = false) (hlast : o.defn.runLength ≤ r.position + 1)
    (hc : s.copyOutcome r.order o r.position = c) (hw : s.applyCopy c = w) (hx : w.order r.order = some x) :
    exec .orderCopy s =
      .next (((w.runCounted r.order (x.report c)).pulse x.defn.chain).freeExecutor.raiseAll
        (s.endRaises w r.order x c)).settle := by
  subst hc hw
  have hreported := State.reported_eq hx
  obtain ⟨y, hy, hstanding⟩ := State.order_reported ho
  have hxy : y = x.report (s.copyOutcome r.order o r.position) := by
    rw [hreported, State.order_setOrder, if_pos rfl] at hy
    exact (Option.some.inj hy).symm
  have hdefn : y.defn = o.defn := congrArg Prod.fst hstanding
  rw [exec_orderCopy_due hheld hr ho, State.takeCopy_ends hy hstop (by rw [hdefn]; exact Nat.not_lt.2 hlast), hxy, hreported,
    State.endRun_eq, Order.retires_report, Order.report_eq]
  rfl

end

/-- Settles O45: the source base case by case, and the event of the last copy in the order of R131 and of R81. -/
theorem runEndsInOrder : Obligations.RunEndsInOrder := by
  refine ⟨fun o => ⟨Order.nextBase_fixed, fun hstep => ⟨Order.nextBase_step_back hstep, Order.nextBase_step_on hstep⟩,
    fun w hstep => ⟨Order.nextBase_wrap_back hstep, Order.nextBase_wrap_on hstep⟩⟩,
    fun s r o x hheld hr ho hstop hlast => ?_⟩
  intro outcome w hx counted retires ended pulsed free
  have hexec := exec_orderCopy_ends (c := outcome) (w := w) hheld hr ho hstop hlast rfl rfl hx
  have hended : w.runCounted r.order (x.report outcome) = ended := by
    simp only [State.runCounted, Order.retires_report, Order.retires_iff, Order.endRun_report]
    rfl
  have hpulsed : ended.pulse x.defn.chain = pulsed := by
    simp only [pulsed]
    cases x.defn.chain <;> rfl
  have hfree : (ended.pulse x.defn.chain).freeExecutor = free := congrArg State.freeExecutor hpulsed
  have hchain : (x.report outcome).defn.chain = x.defn.chain := by rw [Order.report_eq]
  have hfreePorts := w.ports_ended r.order (x.report outcome)
  have hfreeNotices := w.notices_ended r.order (x.report outcome)
  rw [hchain, hended, hfree] at hfreePorts hfreeNotices
  rw [hended, hfree] at hexec
  have hports : free.ports = s.ports := hfreePorts.trans (congrArg State.ports (s.applyCopy_frame outcome) :)
  refine ⟨_, hexec, quiet_settle ((State.raiseAll_ports ..).trans hports), ?_, fun q => ?_⟩
  · rw [State.raiseAll_eq]
    rfl
  · rw [← raisedFor_endRaises, ← hfreeNotices]
    exact State.notices_settled (State.raiseAll_notices_get _ _ _ (State.raiseAll_points ..) (State.raiseAll_orders ..) q)

end Sys2Proof.Machine
